-- ==== Sys2Proof/Word.lean ====
section
/-! DEFINITION. The word types of the PRV464SXR: XLEN = 64 (spec/00_scope.md R7, R9). -/

namespace Sys2Proof

/-- A register value, a virtual address or a 64-bit physical-address operand (R9, R120). -/
abbrev Word := BitVec 64

/-- One byte of memory (R121). -/
abbrev Byte := BitVec 8

/-- A 32-bit instruction word (R191). -/
abbrev InstrWord := BitVec 32

/-- A general-register number, x0 to x31 (R193). -/
abbrev Reg := BitVec 5

/-- A CSR number in the 12-bit CSR space (R30). -/
abbrev CsrAddr := BitVec 12

end Sys2Proof
end

