-- ==== Sys2Proof/Config.lean ====
section
/-! DEFINITION. What the spec leaves to the implementation.

Two kinds of thing. (1) The OPEN PARAMETERS of spec/92_eei_decisions.md section 2 are the fields of `Board`,
plain data that the machine's state carries and no step changes, so that a statement about every state holds
for every value of them (log 1, log 8). (2) The FREE VALUES, which the spec calls `any value` or a draw
(spec/93_implementation_defined.md section 1), are the `opaque` constants below: they have no body, so nothing
can be proved of a particular value. Each is applied to the step counter `tick` (log 17). -/

namespace Sys2Proof

/-- The kind of an access: what `PhysAccessible` and the page permissions distinguish (R128, R147). An AMO and
an SC are stores, an LR is a load (R123). -/
inductive Access where
  | fetch
  | load
  | store
  deriving DecidableEq, Repr

/-- Where in a step a physical read stands: at a level of the page-table walk of an access, or the access
itself. It keeps the free values of one step apart. -/
inductive Site where
  | walk (t : Access) (level : Nat)
  | data (t : Access)
  deriving DecidableEq, Repr

/-- A range of physical addresses that answers (R128): from `base`, `size` bytes, to the kinds of access that
are true, in the access sizes of `widths` (log 8). -/
structure Region where
  base : Nat
  size : Nat
  fetch : Bool
  load : Bool
  store : Bool
  widths : List Nat
  deriving DecidableEq, Repr

/-- The open parameters of the SoC (R7; spec/92_eei_decisions.md section 2). -/
structure Board where
  /-- `RESET_VECTOR` (R470). -/
  resetVector : Word
  /-- `MARCHID_VALUE` (R42). -/
  marchid : Word
  /-- `MIMPID_VALUE` (R43). -/
  mimpid : Word
  /-- `MTIME_ADDR` (R86). -/
  mtimeAddr : Nat
  /-- `MTIMECMP_ADDR` (R86). -/
  mtimecmpAddr : Nat
  /-- `MSIP_ADDR` (R457). -/
  msipAddr : Nat
  /-- The bit of the 32-bit word at `MSIP_ADDR` that is `msip_reg`: the platform's (R457). -/
  msipBit : Nat
  /-- `PLIC_BASE`, the base of the 64 KByte window of the P46459 (R458). -/
  plicBase : Nat
  /-- `PhysAccessible`, as the ranges that answer (R128). -/
  regions : List Region
  /-- `VECTOR_EXCEPTIONS` (R435). -/
  vectorExceptions : Bool
  /-- `SRET_IN_M_LEGAL` (R380). -/
  sretInMLegal : Bool
  deriving DecidableEq, Repr

/-- The constraints of spec/92_eei_decisions.md section 2, and that the device windows are disjoint and below
2^56. -/
def Board.wellFormed (b : Board) : Bool :=
  b.resetVector.toNat % 4 = 0 && b.mtimeAddr % 8 = 0 && b.mtimecmpAddr % 8 = 0 && b.msipAddr % 4 = 0 &&
  b.msipBit < 32 && b.mtimeAddr ≠ b.mtimecmpAddr &&
  (b.msipAddr + 4 ≤ b.mtimeAddr || b.mtimeAddr + 8 ≤ b.msipAddr) &&
  (b.msipAddr + 4 ≤ b.mtimecmpAddr || b.mtimecmpAddr + 8 ≤ b.msipAddr) &&
  (b.plicBase + 65536 ≤ b.mtimeAddr || b.mtimeAddr + 8 ≤ b.plicBase) &&
  (b.plicBase + 65536 ≤ b.mtimecmpAddr || b.mtimecmpAddr + 8 ≤ b.plicBase) &&
  (b.plicBase + 65536 ≤ b.msipAddr || b.msipAddr + 4 ≤ b.plicBase) &&
  b.mtimeAddr + 8 ≤ 2 ^ 56 && b.mtimecmpAddr + 8 ≤ 2 ^ 56 && b.msipAddr + 4 ≤ 2 ^ 56 &&
  b.plicBase + 65536 ≤ 2 ^ 56

/-- The board of `State.reset`. DESIGN CHOICE, unsafe, every field (log 1): the reset vector is the address
spec/95_test_vectors.md starts its programs at; the devices lie at the top of the physical space, away from
those programs; every address below 2^56 answers every access, as that file assumes; the two Booleans have the
defaults of spec/92_eei_decisions.md section 2; the identities are 0. -/
def Board.default : Board where
  resetVector := 0x80000000#64
  marchid := 0
  mimpid := 0
  mtimeAddr := 0xFFFFFFFFFE0000
  mtimecmpAddr := 0xFFFFFFFFFE0008
  msipAddr := 0xFFFFFFFFFE0010
  msipBit := 0
  plicBase := 0xFFFFFFFFFF0000
  regions := [{ base := 0, size := 2 ^ 56, fetch := true, load := true, store := true, widths := [1, 2, 4, 8] }]
  vectorExceptions := true
  sretInMLegal := false

namespace Config

/-! ## Free values: constants without a body (log 17) -/

/-- How many cycles mcycle counts between step `tick` and the next (R61, U10; log 12). -/
opaque cyclesElapsed (tick : Nat) : Nat

/-- How far mtime moves between step `tick` and the next (R86, U10; log 12). -/
opaque mtimeTicks (tick : Nat) : Nat

/-- The M-level external-interrupt line after step `tick` (R458; log 16). -/
opaque extMeiLine (tick : Nat) : Bool

/-- The S-level external-interrupt line after step `tick`, once the controller is programmed (R412, R458;
log 16). -/
opaque extSeiLine (tick : Nat) : Bool

/-- Which version of a stale word the fetch of step `tick` returns (R162, U6; log 9). -/
opaque fetchPick (tick : Nat) : Nat

/-- Which root page table the walk of an access of step `tick` starts from (R154, U7; log 10). -/
opaque rootPick (tick : Nat) (t : Access) : Nat

/-- Which version of a page-table entry the walk of an access of step `tick` uses at a level (R154, U7;
log 10). -/
opaque ptePick (tick : Nat) (t : Access) (level : Nat) : Nat

/-- Whether the A and D update after a stale translation sets the bits in the entry as memory holds it, or
writes the used entry back (R149; log 11). -/
opaque mergeStaleUpdate (tick : Nat) (t : Access) : Bool

/-- Whether an entry with reserved bits 63:54 set page-faults (U4; log 14). -/
opaque reservedPteFaults (tick : Nat) (t : Access) (level : Nat) : Bool

/-- What mcause (`false`) or scause (`true`) reads as in step `tick` when software wrote a pair that no trap
produces (R68, R78, U9; log 15). -/
opaque causeReadBack (tick : Nat) (supervisor : Bool) : Word

/-- What a read inside a device window returns where no register of the spec answers (R131, U23; log 13). -/
opaque deviceRead (tick : Nat) (site : Site) (addr : Nat) : Word

/-- What a 64-bit timer register at an address holds after a write of another size than its own (R131, U23;
log 13). -/
opaque timerAfterPartialWrite (tick : Nat) (addr : Nat) : Word

/-- What `msip_reg` holds after a write that touches its word but is no 4-byte write of it (R131, U23;
log 13). -/
opaque msipAfterPartialWrite (tick : Nat) : Bool

end Config

end Sys2Proof
end

