-- ==== Sys2Proof/Machine/State.lean ====
section
/-! DEFINITION. The state of the machine: everything spec/10_state.md gives it, the hidden state of R29, the
platform registers of R86 and R457, and the model's own `tick` and `board`; the reasons a step can stop; the
state after reset (spec/70_reset_and_hazards.md R470, R471). -/

namespace Sys2Proof.Machine

/-- The privilege modes (R26, R450). -/
inductive Priv where
  /-- User, encoding 00. -/
  | U
  /-- Supervisor, encoding 01. -/
  | S
  /-- Machine, encoding 11. -/
  | M
  deriving DecidableEq, Repr

/-- The synchronous exceptions (R401). -/
inductive Exc where
  | instrMisaligned
  | instrAccessFault
  | illegalInstruction
  | breakpoint
  | loadMisaligned
  | loadAccessFault
  | storeMisaligned
  | storeAccessFault
  | ecallU
  | ecallS
  | ecallM
  | instrPageFault
  | loadPageFault
  | storePageFault
  deriving DecidableEq, Repr

/-- The interrupts this hardware can take (R402). -/
inductive Irq where
  /-- Supervisor software, code 1. -/
  | ssi
  /-- Machine software, code 3. -/
  | msi
  /-- Supervisor timer, code 5. -/
  | sti
  /-- Machine timer, code 7. -/
  | mti
  /-- Supervisor external, code 9. -/
  | sei
  /-- Machine external, code 11. -/
  | mei
  deriving DecidableEq, Repr

/-- What a trap is taken for (R400). -/
inductive Cause where
  | exc (e : Exc)
  | irq (i : Irq)
  deriving DecidableEq, Repr

/-- The width of a data access (R123). -/
inductive Width where
  | byte
  | half
  | word
  | double
  deriving DecidableEq, Repr

/-- The CSRs of the table of R30, each under its own name. -/
inductive Csr where
  | cycle | time | instret | hpmcounter3 | hpmcounter4
  | sstatus | sedeleg | sideleg | sie | stvec | scounteren
  | sscratch | sepc | scause | stval | sip | satp
  | mvendorid | marchid | mimpid | mhartid
  | mstatus | misa | medeleg | mideleg | mie | mtvec | mcounteren
  | mscratch | mepc | mcause | mtval | mip
  | mcycle | minstret | mhpmcounter3 | mhpmcounter4 | mcountinhibit | mhpmevent3
  deriving DecidableEq, Repr

/-- The writable fields of mstatus (R45). Every other bit of the register is hardwired (R55), so the fields
are the whole of its storage; MPP can hold no encoding but those of U, S and M (R54). -/
structure Mstatus where
  /-- Bit 22 (R46). -/
  tsr : Bool
  /-- Bit 21 (R47). -/
  tw : Bool
  /-- Bit 20 (R48). -/
  tvm : Bool
  /-- Bit 19 (R50). -/
  mxr : Bool
  /-- Bit 18 (R51). -/
  sum : Bool
  /-- Bit 17 (R49). -/
  mprv : Bool
  /-- Bits 12:11 (R54). -/
  mpp : Priv
  /-- Bit 8 (R54). -/
  spp : Bool
  /-- Bit 7 (R53). -/
  mpie : Bool
  /-- Bit 5 (R53). -/
  spie : Bool
  /-- Bit 3 (R52). -/
  mie : Bool
  /-- Bit 1 (R52). -/
  sie : Bool
  deriving DecidableEq, Repr

/-- mtvec and stvec: bits 63:2 and MODE, of which only 0 and 1 can be stored (R56, R72). -/
structure Tvec where
  base : BitVec 62
  vectored : Bool
  deriving DecidableEq, Repr

/-- satp: MODE 0 (Bare) or 8 (Sv39), ASID hardwired 0, PPN (R80). -/
structure Satp where
  sv39 : Bool
  ppn : BitVec 44
  deriving DecidableEq, Repr

/-- The bytes of physical memory that differ from what an unlisted address reads as, addresses rising. -/
abbrev Memory := List Host.Cell

/-- The state of the machine. -/
structure State where
  /-- x0 to x31 (R20); the slot of x0 is never read (R21). -/
  regs : Vector Word 32
  /-- The program counter (R24). -/
  pc : Word
  /-- The current privilege mode (R26). -/
  priv : Priv
  /-- The stored fields of mstatus (R45). -/
  mstatus : Mstatus
  /-- mtvec (R56). -/
  mtvec : Tvec
  /-- stvec (R72). -/
  stvec : Tvec
  /-- medeleg (R57). -/
  medeleg : Word
  /-- mideleg (R58). -/
  mideleg : Word
  /-- The interrupt-enable register mie (R60). -/
  mie : Word
  /-- mip.SSIP (R59). -/
  ssip : Bool
  /-- mip.STIP (R59). -/
  stip : Bool
  /-- The software-written bit of mip.SEIP (R29, R59). -/
  seipSw : Bool
  /-- mscratch (R66). -/
  mscratch : Word
  /-- mepc (R67). -/
  mepc : Word
  /-- mcause (R68). -/
  mcause : Word
  /-- mtval (R69). -/
  mtval : Word
  /-- mcounteren (R64). -/
  mcounteren : BitVec 5
  /-- scounteren (R75). -/
  scounteren : BitVec 5
  /-- mcountinhibit (R65). -/
  mcountinhibit : Word
  /-- mcycle (R61). -/
  mcycle : Word
  /-- minstret (R62). -/
  minstret : Word
  /-- sscratch (R76). -/
  sscratch : Word
  /-- sepc (R77). -/
  sepc : Word
  /-- scause (R78). -/
  scause : Word
  /-- stval (R79). -/
  stval : Word
  /-- satp (R80). -/
  satp : Satp
  /-- The memory-mapped timer mtime (R86). -/
  mtime : Word
  /-- The memory-mapped compare register mtimecmp (R86). -/
  mtimecmp : Word
  /-- `msip_reg` of the software-interrupt controller (R457). -/
  msip : Bool
  /-- The M-level line of the external-interrupt controller (R458). -/
  extMei : Bool
  /-- The S-level line of the external-interrupt controller (R412, R458). -/
  extSei : Bool
  /-- The model's own: software has stored into the controller's window since reset (R412; log 13). -/
  plicProgrammed : Bool
  /-- Physical memory (R120). -/
  mem : Memory
  /-- Instruction cache and prefetch (R29, R162): the aligned doublewords overwritten since the last FENCE.I,
  with the value each had, latest first. -/
  codeHistory : List (Nat × Word)
  /-- Instruction and data TLB (R29, R154): the aligned doublewords overwritten since the last SFENCE.VMA, with
  the value each had, latest first. -/
  pteHistory : List (Nat × Word)
  /-- Instruction and data TLB (R29, R154): the root page numbers satp held in Sv39 mode since the last
  SFENCE.VMA, latest first. -/
  rootHistory : List (BitVec 44)
  /-- The model's own: the number of the step, the argument of every free value (log 17). -/
  tick : Nat
  /-- The open parameters (log 1). -/
  board : Board
  deriving DecidableEq, Repr

/-- Why the machine stops. There is no such reason: every condition the spec names is a trap (R401), a trap
within a trap is taken like any other (R441), an address that does not exist raises an access fault (R128), and
no instruction halts (spec/93_implementation_defined.md U27, U28). Safe: with no constructor, a step cannot
answer a fault. -/
inductive Fault where
  deriving DecidableEq, Repr

/-- Why an instruction has no meaning in the model. -/
inductive Refusal where
  /-- Raised by `exec` for an instruction the model gives no meaning. No arm raises it. Safe: nothing can be
  proved of a refused step. -/
  | notModelled (mnemonic : String)
  deriving DecidableEq, Repr

/-- What a trap, an instruction or a step answers. -/
abbrev Result := Host.Outcome State Fault Refusal

/-- The machine right after reset on board `b` (R470, R471): M mode, MIE = 0, MPRV = 0, medeleg = mideleg = 0,
`ext_sei` = 0 and the pc at the reset vector are the spec's; every other value is DESIGN CHOICE, unsafe
(logs 2 to 6): registers, CSRs and histories 0 or empty, mtimecmp all ones so that the timer line is low. -/
def State.resetOn (b : Board) : State where
  regs := Vector.replicate 32 0
  pc := b.resetVector
  priv := .M
  mstatus :=
    { tsr := false, tw := false, tvm := false, mxr := false, sum := false, mprv := false, mpp := .U,
      spp := false, mpie := false, spie := false, mie := false, sie := false }
  mtvec := { base := 0, vectored := false }
  stvec := { base := 0, vectored := false }
  medeleg := 0
  mideleg := 0
  mie := 0
  ssip := false
  stip := false
  seipSw := false
  mscratch := 0
  mepc := 0
  mcause := 0
  mtval := 0
  mcounteren := 0
  scounteren := 0
  mcountinhibit := 0
  mcycle := 0
  minstret := 0
  sscratch := 0
  sepc := 0
  scause := 0
  stval := 0
  satp := { sv39 := false, ppn := 0 }
  mtime := 0
  mtimecmp := BitVec.allOnes 64
  msip := false
  extMei := false
  extSei := false
  plicProgrammed := false
  mem := []
  codeHistory := []
  pteHistory := []
  rootHistory := []
  tick := 0
  board := b

/-- The machine right after reset, on the board of log 1. -/
def State.reset : State := State.resetOn Board.default

end Sys2Proof.Machine
end

