-- ==== Sys2Proof/Machine/Flags.lean ====
section
/-! DEFINITION. This hardware has no flags (spec/10_state.md R27). What stands in their place are the
comparisons of two register values (spec/00_scope.md R9), which SLT, SLTI and the branches use and which
write a 0 or a 1 or decide a jump. -/

namespace Sys2Proof.Machine

/-- `<s`: less as signed numbers (R9). -/
def lessSigned {n : Nat} (a b : BitVec n) : Bool := decide (a.toInt < b.toInt)

/-- `<u`: less as unsigned numbers (R9). -/
def lessUnsigned {n : Nat} (a b : BitVec n) : Bool := decide (a.toNat < b.toNat)

/-- The register value a comparison writes: 1 or 0 (R234). -/
def boolWord (b : Bool) : Word := if b then 1#64 else 0#64

/-- The greater of two signed values, the first where they are equal (R341). -/
def maxSigned {n : Nat} (a b : BitVec n) : BitVec n := if lessSigned a b then b else a

/-- The lesser of two signed values, the first where they are equal (R343). -/
def minSigned {n : Nat} (a b : BitVec n) : BitVec n := if lessSigned b a then b else a

/-- The greater of two unsigned values, the first where they are equal (R345). -/
def maxUnsigned {n : Nat} (a b : BitVec n) : BitVec n := if lessUnsigned a b then b else a

/-- The lesser of two unsigned values, the first where they are equal (R347). -/
def minUnsigned {n : Nat} (a b : BitVec n) : BitVec n := if lessUnsigned b a then b else a

end Sys2Proof.Machine
end

