-- ==== Sys2Proof/Machine/Memory.lean ====
section
/-! DEFINITION. Physical memory as a list of cells in one canonical form: addresses strictly rising, and no
cell that holds what an unlisted address reads as (spec/20_memory.md R120 to R122). -/

namespace Sys2Proof.Machine

/-- What a byte of memory that is not listed reads as. DESIGN CHOICE, unsafe (log 6): the initial memory image
is an open parameter (spec/92_eei_decisions.md D41), and an image is a listed memory. -/
def unlistedByte : Byte := 0#8

/-- The byte at a physical address. -/
def Memory.byteAt : Memory → Nat → Byte
  | [], _ => unlistedByte
  | (b, v) :: m, a => if a = b then v else Memory.byteAt m a

/-- A memory with the byte at one address replaced, in canonical form. -/
def Memory.setByte : Memory → Nat → Byte → Memory
  | [], a, v => if v = unlistedByte then [] else [(a, v)]
  | (b, w) :: m, a, v =>
    if a < b then if v = unlistedByte then (b, w) :: m else (a, v) :: (b, w) :: m
    else if a = b then if v = unlistedByte then m else (a, v) :: m
    else (b, w) :: Memory.setByte m a v

/-- The canonical form, above a bound on the addresses. -/
def Memory.wfFrom : Nat → Memory → Bool
  | _, [] => true
  | lo, (a, v) :: m => decide (lo ≤ a) && decide (v ≠ unlistedByte) && Memory.wfFrom (a + 1) m

/-- The canonical form of a memory. -/
def Memory.wf (m : Memory) : Bool := Memory.wfFrom 0 m

/-- The little-endian value of `n` bytes from an address (R122). -/
def Memory.load (m : Memory) (a : Nat) : Nat → Word
  | 0 => 0#64
  | n + 1 => (m.byteAt a).setWidth 64 ||| (Memory.load m (a + 1) n <<< 8)

/-- A memory with the low `n` bytes of a value stored little-endian from an address (R122). -/
def Memory.store (m : Memory) (a : Nat) (v : Word) : Nat → Memory
  | 0 => m
  | n + 1 => Memory.store (m.setByte a (v.setWidth 8)) (a + 1) (v >>> 8) n

end Sys2Proof.Machine
end

