-- ==== Sys2Proof/Machine/Operands.lean ====
section
/-! DEFINITION. Operand forms: the 64-bit value of every immediate (spec/30_encoding.md R194), the shift
amounts (R239, R249, R300), the sign extension of a 32-bit result (R300), the bytes of an access width (R123)
and the test of alignment (R126, R269). -/

namespace Sys2Proof.Machine

/-- `sext_12`: I and S immediates (R194). -/
def immI (imm : BitVec 12) : Word := imm.signExtend 64

/-- `sext_32(imm << 12)`: U immediates (R194). -/
def immU (imm : BitVec 20) : Word := (imm ++ 0#12 : BitVec 32).signExtend 64

/-- `sext_13`: the byte offset of a branch (R194, R272). -/
def immB (off : BitVec 13) : Word := off.signExtend 64

/-- `sext_21`: the byte offset of JAL (R194, R261). -/
def immJ (off : BitVec 21) : Word := off.signExtend 64

/-- `zext_5`: the immediate of the CSR instructions (R194, R376). -/
def immZ (uimm : BitVec 5) : Word := uimm.setWidth 64

/-- The shift amount of SLL, SRL, SRA: the low 6 bits of the register (R249). -/
def shamt6 (v : Word) : Nat := v.toNat % 64

/-- The shift amount of SLLW, SRLW, SRAW: the low 5 bits of the register (R300). -/
def shamt5 (v : Word) : Nat := v.toNat % 32

/-- The low 32 bits of a register (R300). -/
def low32 (v : Word) : BitVec 32 := v.setWidth 32

/-- `sext_32`: a 32-bit result in a register (R300). -/
def sext32 (v : BitVec 32) : Word := v.signExtend 64

/-- The bytes an access of a width moves (R123). -/
def Width.bytes : Width → Nat
  | .byte => 1
  | .half => 2
  | .word => 4
  | .double => 8

/-- `sext_N` of a value of a width (R281, R283, R285). -/
def Width.signExtend (w : Width) (v : Word) : Word := (v.setWidth (8 * w.bytes)).signExtend 64

/-- `zext_N` of a value of a width (R282, R284, R286). -/
def Width.zeroExtend (w : Width) (v : Word) : Word := (v.setWidth (8 * w.bytes)).setWidth 64

/-- Whether an address is no multiple of `n` (R126, R269). -/
def misaligned (a : Word) (n : Nat) : Bool := decide (a.toNat % n ≠ 0)

end Sys2Proof.Machine
end

