-- ==== Sys2Proof/Machine/Platform.lean ====
section
/-! DEFINITION. The physical access (spec/20_memory.md R120, R128, R131, R132): what answers at a physical
address, reads and writes of memory and of the platform's registers (spec/10_state.md R86;
spec/60_exceptions.md R455, R457, R458), and the passing of time between two steps. -/

namespace Sys2Proof.Machine

/-- Whether a region answers a kind of access. -/
def regionAllows (r : Region) : Access → Bool
  | .fetch => r.fetch
  | .load => r.load
  | .store => r.store

/-- `PhysAccessible(pa, n, kind)`: false for any byte at or above 2^56, otherwise the board's (R128; log 8). -/
def physAccessible (b : Board) (pa : Word) (n : Nat) (t : Access) : Bool :=
  decide (pa.toNat + n ≤ 2 ^ 56) &&
  b.regions.any (fun r =>
    decide (r.base ≤ pa.toNat) && decide (pa.toNat + n ≤ r.base + r.size) && regionAllows r t &&
    r.widths.contains n)

/-- Whether the ranges of `n` bytes from `a` and of `m` bytes from `b` share a byte. -/
def overlaps (a n b m : Nat) : Bool := decide (a < b + m) && decide (b < a + n)

/-- What answers an access of `n` bytes at a physical address. -/
inductive Responder where
  /-- Ordinary memory. -/
  | ram
  /-- All eight bytes of mtime (R86). -/
  | mtime
  /-- All eight bytes of mtimecmp (R86). -/
  | mtimecmp
  /-- The 32-bit word of `msip_reg` (R457). -/
  | msip
  /-- A device window, in a way whose effect the spec does not give (R131, U23). -/
  | oracle
  deriving DecidableEq, Repr

/-- The responder of an access. DESIGN CHOICE (log 26): one responder answers the whole access, so an aligned access
that covers bytes of a device and bytes of ordinary memory beside them (8 bytes over the 4-byte msip word, or over an
edge of the P46459 window) is the device's. -/
def responder (b : Board) (a n : Nat) : Responder :=
  if a = b.mtimeAddr ∧ n = 8 then .mtime
  else if a = b.mtimecmpAddr ∧ n = 8 then .mtimecmp
  else if a = b.msipAddr ∧ n = 4 then .msip
  else if overlaps a n b.mtimeAddr 8 || overlaps a n b.mtimecmpAddr 8 || overlaps a n b.msipAddr 4 ||
      overlaps a n b.plicBase 65536 then .oracle
  else .ram

/-- The low `n` bytes of a value. -/
def truncBytes (v : Word) (n : Nat) : Word := v &&& BitVec.ofNat 64 (2 ^ (8 * n) - 1)

/-- A read of `n` bytes at a physical address. The bits of the msip word other than `msip_reg` are free
(R457). A read that covers bytes of a device and bytes of memory beside them returns a free value in all of them
(DESIGN CHOICE, log 26). -/
def physRead (s : State) (pa : Word) (n : Nat) (site : Site) : Word :=
  match responder s.board pa.toNat n with
  | .ram => s.mem.load pa.toNat n
  | .mtime => s.mtime
  | .mtimecmp => s.mtimecmp
  | .msip =>
    let mask : Word := 1#64 <<< s.board.msipBit
    truncBytes ((Config.deviceRead s.tick site pa.toNat &&& ~~~mask) ||| (if s.msip then mask else 0#64)) 4
  | .oracle => truncBytes (Config.deviceRead s.tick site pa.toNat) n

/-- A read of `n` bytes that the hart makes by itself, for a fetch or a page-table walk: memory, or, where a device
answers, a draw in every bit (R131). So it may be the old or the new value of a device register that a store has written
since the last FENCE.I or SFENCE.VMA, and after one too (DESIGN CHOICE, safe; log 28). -/
def implicitRead (s : State) (pa : Word) (n : Nat) (site : Site) : Word :=
  if responder s.board pa.toNat n = .ram then s.mem.load pa.toNat n
  else truncBytes (Config.deviceRead s.tick site pa.toNat) n

/-- The address of the aligned doubleword that holds a physical address. -/
def doublewordOf (a : Nat) : Nat := a / 8 * 8

/-- The entry a write at a physical address adds to the histories: the doubleword as it was (R154, R162). -/
def overwritten (m : Memory) (a : Nat) : Nat × Word := (doublewordOf a, m.load (doublewordOf a) 8)

/-- A write of the low `n` bytes of a value at a physical address. A write of memory adds to the histories
that stale fetches and stale translations draw from; a write that a device answers does not, since what a fetch or a
walk reads of a device is a draw already (`implicitRead`; log 28). A write into a device window of another shape than the
register's own leaves the registers it touches free (R131; log 13). DESIGN CHOICE, unsafe (log 26): a write that
covers bytes of a device and bytes of memory beside them, as an 8-byte store over the 4-byte msip word does, changes
none of those bytes of memory and adds nothing to the histories. -/
def physWrite (s : State) (pa : Word) (n : Nat) (v : Word) : State :=
  let a := pa.toNat
  let b := s.board
  let r := responder b a n
  { s with
    mem := if r = .ram then s.mem.store a v n else s.mem
    codeHistory := if r = .ram then overwritten s.mem a :: s.codeHistory else s.codeHistory
    pteHistory := if r = .ram then overwritten s.mem a :: s.pteHistory else s.pteHistory
    mtime :=
      if r = .mtime then v
      else if r = .oracle && overlaps a n b.mtimeAddr 8 then Config.timerAfterPartialWrite s.tick b.mtimeAddr
      else s.mtime
    mtimecmp :=
      if r = .mtimecmp then v
      else if r = .oracle && overlaps a n b.mtimecmpAddr 8 then
        Config.timerAfterPartialWrite s.tick b.mtimecmpAddr
      else s.mtimecmp
    msip :=
      if r = .msip then v.getLsbD b.msipBit
      else if r = .oracle && overlaps a n b.msipAddr 4 then Config.msipAfterPartialWrite s.tick
      else s.msip
    plicProgrammed := s.plicProgrammed || (decide (r = .oracle) && overlaps a n b.plicBase 65536) }

/-- A 64-bit counter moved on by a free amount that never takes it past its largest value: it stays or
increases (R86, U10; log 12). -/
def advanceNoWrap (now : Word) (d : Nat) : Word := now + BitVec.ofNat 64 (d % (2 ^ 64 - now.toNat))

/-- What passes between two steps (R61, R86, R412, R424, R458): mcycle counts while it is not inhibited, mtime
moves on, the two external lines take any value (the S-level line only once the controller is programmed), and
the step counter advances (logs 12, 16, 17). -/
def State.elapse (s : State) : State :=
  { s with
    mcycle :=
      if s.mcountinhibit.getLsbD 0 then s.mcycle
      else s.mcycle + BitVec.ofNat 64 (Config.cyclesElapsed s.tick)
    mtime := advanceNoWrap s.mtime (Config.mtimeTicks s.tick)
    extMei := Config.extMeiLine s.tick
    extSei := s.plicProgrammed && Config.extSeiLine s.tick
    tick := s.tick + 1 }

end Sys2Proof.Machine
end

