-- ==== Sys2Proof/Machine/Translate.lean ====
section
/-! DEFINITION. Sv39 translation and protection (spec/20_memory.md R140 to R156), and the exception each kind
of access raises (R126, R128, R152). The TLBs appear as a free choice, at each level, among the values the
page-table entry has had since the last SFENCE.VMA (R154 form (b), U7; log 10). -/

namespace Sys2Proof.Machine

/-- The misalignment exception of a data access (R126). A fetch address is never misaligned (R24); code 0
stands there only to make the function total. -/
def misalignedExc : Access → Exc
  | .fetch => .instrMisaligned
  | .load => .loadMisaligned
  | .store => .storeMisaligned

/-- The access-fault exception of an access (R128). -/
def accessFaultExc : Access → Exc
  | .fetch => .instrAccessFault
  | .load => .loadAccessFault
  | .store => .storeAccessFault

/-- The page-fault exception of an access (R152). -/
def pageFaultExc : Access → Exc
  | .fetch => .instrPageFault
  | .load => .loadPageFault
  | .store => .storePageFault

/-! ## Page-table entries (R144, R145) -/

/-- V. -/
def pteV (pte : Word) : Bool := pte.getLsbD 0
/-- R. -/
def pteR (pte : Word) : Bool := pte.getLsbD 1
/-- W. -/
def pteW (pte : Word) : Bool := pte.getLsbD 2
/-- X. -/
def pteX (pte : Word) : Bool := pte.getLsbD 3
/-- U. -/
def pteU (pte : Word) : Bool := pte.getLsbD 4
/-- PPN, bits 53:10. -/
def ptePpn (pte : Word) : BitVec 44 := pte.extractLsb' 10 44
/-- The reserved bits 63:54. -/
def pteReserved (pte : Word) : BitVec 10 := pte.extractLsb' 54 10

/-- The bits an access needs set in the leaf entry: A, and D for a store (R149). -/
def neededBits : Access → Word
  | .store => 0xC0#64
  | _ => 0x40#64

/-- Whether bits 63:39 of a virtual address all equal bit 38 (R142, R151). -/
def canonical (va : Word) : Bool := decide ((va.extractLsb' 0 39).signExtend 64 = va)

/-- VPN[i] (R142). -/
def vpn (va : Word) (i : Nat) : BitVec 9 := va.extractLsb' (12 + 9 * i) 9

/-- The address of the entry for a virtual address in the level-`i` table at `a` (R147 step 2). -/
def pteAddress (a va : Word) (i : Nat) : Word := a + (vpn va i).setWidth 64 * 8#64

/-- The address of the page with a page number (R141, R147). -/
def pageAddress (ppn : BitVec 44) : Word := ppn.setWidth 64 * 4096#64

/-- The permission of a leaf entry (R148). -/
def permitted (st : Mstatus) (pte : Word) (t : Access) (p : Priv) : Bool :=
  let userOk := decide (p = .U) && pteU pte
  let supervisorOk := decide (p = .S) && (!pteU pte || st.sum)
  match t with
  | .fetch => pteX pte && (userOk || (decide (p = .S) && !pteU pte))
  | .load => (pteR pte || (st.mxr && pteX pte)) && (userOk || supervisorOk)
  | .store => pteW pte && (userOk || supervisorOk)

/-- A superpage whose low page-number bits are not 0 (R147 step 6). -/
def misalignedSuperpage (pte : Word) (i : Nat) : Bool := decide ((ptePpn pte).toNat % 2 ^ (9 * i) ≠ 0)

/-- The physical address of a leaf at level `i` (R147 step 8, R150): the page number above the 12 + 9i low
bits, which are the virtual address's. -/
def leafAddress (pte va : Word) (i : Nat) : Word :=
  BitVec.ofNat 64
    ((ptePpn pte).toNat / 2 ^ (9 * i) * 2 ^ (12 + 9 * i) + va.toNat % 2 ^ (12 + 9 * i))

/-! ## Stale entries (R154, U7; log 10) -/

/-- One of the current value and the older ones, by a free number; the current value where there is no
other. -/
def pickVersion {α : Type} (cur : α) (old : List α) (k : Nat) : α :=
  match old with
  | [] => cur
  | _ => (cur :: old).getD (k % (old.length + 1)) cur

/-- Whether a walk that uses an older value of the entry at `ea` ends as one that uses the value in memory: the two are
equal, or the one in memory is the older one with bits that the access sets in it again, in memory that takes that
write (R147 step 7, R149). -/
def sameOutcome (b : Board) (t : Access) (ea cur old : Word) : Bool :=
  decide (old = cur) ||
  (decide (old ||| (cur &&& neededBits t) = cur) && physAccessible b ea 8 .store &&
    decide (responder b ea.toNat 8 = .ram))

/-- The older values of an entry, old permissions and old A and D bits among them: what its doubleword held since the
last SFENCE.VMA (R154, U7), but for values that lead to the same outcome as the one in memory (log 27). -/
def staleEntries (s : State) (t : Access) (ea cur : Word) : List Word :=
  s.pteHistory.filterMap (fun h =>
    if h.1 = ea.toNat ∧ sameOutcome s.board t ea cur h.2 = false then some h.2 else none)

/-- The entry a walk uses at an address: the one in memory, or an older one. -/
def usedEntry (s : State) (t : Access) (i : Nat) (ea cur : Word) : Word :=
  pickVersion cur (staleEntries s t ea cur) (Config.ptePick s.tick t i)

/-- The root page number a walk starts from: satp's, or one it held since the last SFENCE.VMA (R156). -/
def usedRoot (s : State) (t : Access) : BitVec 44 :=
  pickVersion s.satp.ppn (s.rootHistory.filter (fun r => r ≠ s.satp.ppn)) (Config.rootPick s.tick t)

/-! ## The walk -/

/-- What a translation gives: the physical address, and the write of the leaf entry that sets A or D, if one
is due (R147 step 7). The write is made only once the whole access is known to succeed (R125, R436). -/
structure Translation where
  pa : Word
  update : Option (Word × Word)
  deriving DecidableEq, Repr

/-- Whether the leaf entry must be written: A = 0, or D = 0 on a store (R147 step 7). -/
def updateDue (t : Access) (pte : Word) : Bool := decide (pte &&& neededBits t ≠ neededBits t)

/-- The value written to the leaf entry: A and, on a store, D set (R149). Where a stale entry was used, it is
either that entry or the one in memory that gets the bits (log 11). -/
def updatedEntry (s : State) (t : Access) (cur pte : Word) : Word :=
  (if pte = cur then cur else if Config.mergeStaleUpdate s.tick t then cur else pte) ||| neededBits t

/-- Steps 5 to 8 of the walk, at a leaf entry (R147). The update is a physical store of the entry (R153;
log 19). -/
def walkLeaf (s : State) (va : Word) (t : Access) (p : Priv) (i : Nat) (pteAddr cur pte : Word) :
    Except Exc Translation :=
  if !permitted s.mstatus pte t p then .error (pageFaultExc t)
  else if misalignedSuperpage pte i then .error (pageFaultExc t)
  else if !updateDue t pte then .ok { pa := leafAddress pte va i, update := none }
  else if !physAccessible s.board pteAddr 8 .store then .error (accessFaultExc t)
  else .ok { pa := leafAddress pte va i, update := some (pteAddr, updatedEntry s t cur pte) }

/-- Steps 2 to 4 of the walk at level `i` in the table at `a`; `next` is the walk one level down (R147). An
entry that cannot be read raises the access fault of the access (R153); an entry with reserved bits set may
page-fault (U4; log 14). -/
def walkLevel (s : State) (va : Word) (t : Access) (p : Priv) (i : Nat) (a : Word)
    (next : Word → Except Exc Translation) : Except Exc Translation :=
  let pteAddr := pteAddress a va i
  if !physAccessible s.board pteAddr 8 .load then .error (accessFaultExc t)
  else
    let cur := implicitRead s pteAddr 8 (.walk t i)
    let pte := usedEntry s t i pteAddr cur
    if !pteV pte || (!pteR pte && pteW pte) then .error (pageFaultExc t)
    else if decide (pteReserved pte ≠ 0) && Config.reservedPteFaults s.tick t i then .error (pageFaultExc t)
    else if pteR pte || pteX pte then walkLeaf s va t p i pteAddr cur pte
    else next (pageAddress (ptePpn pte))

/-- The walk from level `i` (R147); a pointer at level 0 page-faults. -/
def walk (s : State) (va : Word) (t : Access) (p : Priv) : Nat → Word → Except Exc Translation
  | 0, a => walkLevel s va t p 0 a (fun _ => .error (pageFaultExc t))
  | i + 1, a => walkLevel s va t p (i + 1) a (walk s va t p i)

/-- Whether an access of a privilege is translated (R140). -/
def translated (s : State) (p : Priv) : Bool := s.satp.sv39 && decide (p ≠ .M)

/-- The translation of a virtual address (R140, R147, R151). -/
def translateVa (s : State) (va : Word) (t : Access) (p : Priv) : Except Exc Translation :=
  if !translated s p then .ok { pa := va, update := none }
  else if !canonical va then .error (pageFaultExc t)
  else walk s va t p 2 (pageAddress (usedRoot s t))

/-- The state after the A and D update of a translation (R149). -/
def applyUpdate (s : State) : Option (Word × Word) → State
  | none => s
  | some (a, pte) => physWrite s a 8 pte

/-- Translation, protection and physical check of `n` bytes at a virtual address (R125 steps 2 and 3): the
physical address and the state with A and D updated, or the exception. -/
def resolve (s : State) (va : Word) (t : Access) (p : Priv) (n : Nat) : Except Exc (Word × State) :=
  match translateVa s va t p with
  | .error e => .error e
  | .ok tr =>
    if physAccessible s.board tr.pa n t then .ok (tr.pa, applyUpdate s tr.update)
    else .error (accessFaultExc t)

end Sys2Proof.Machine
end

