-- ==== Sys2Proof/Machine/Ops.lean ====
section
/-! DEFINITION. The named operations of the machine: reading and writing a register, retiring an instruction,
`Fetch`, `MemRead`, `MemWrite`, `MemAmo` (spec/00_scope.md R10; spec/20_memory.md R124 to R129), taking a trap
and returning from one (spec/60_exceptions.md R400 to R440), and which interrupt is taken (R421, R422). -/

namespace Sys2Proof.Machine

/-! ## Registers and retirement -/

/-- `x[i]` (R10, R21). -/
def State.reg (s : State) (r : Reg) : Word := if r = 0#5 then 0#64 else s.regs[r.toNat]'r.isLt

/-- The registers with `x[i]` written; a write of x0 is discarded (R21). -/
def writeRegs (regs : Vector Word 32) (r : Reg) (v : Word) : Vector Word 32 :=
  if r = 0#5 then regs else regs.set r.toNat v r.isLt

/-- `x[i] <- v` (R10, R21). -/
def State.setReg (s : State) (r : Reg) (v : Word) : State := { s with regs := writeRegs s.regs r v }

/-- minstret after one more instruction has completed: it counts while mcountinhibit.IR is 0 (R62, R65). -/
def countedInstret (s : State) : Word :=
  if s.mcountinhibit.getLsbD 2 then s.minstret else s.minstret + 1#64

/-- An instruction completes: the pc becomes `next` and the instruction is counted (R11 step 5, R62). -/
def State.retire (s : State) (next : Word) : State :=
  { s with pc := next, minstret := countedInstret s }

/-- The address of the next instruction in line (R25). -/
def State.nextPc (s : State) : Word := s.pc + 4#64

/-- The commonest completion: `x[rd] <- v; pc <- pc + 4`. -/
def State.writeAndRetire (s : State) (rd : Reg) (v : Word) : Result :=
  .next ((s.setReg rd v).retire s.nextPc)

/-! ## Traps: codes (R26, R401, R402, R431) -/

/-- The encoding of a mode in MPP (R26, R54). -/
def Priv.bits : Priv → BitVec 2
  | .U => 0b00#2
  | .S => 0b01#2
  | .M => 0b11#2

/-- The level of a mode (R26). -/
def Priv.level (p : Priv) : Nat := p.bits.toNat

/-- The exception codes (R401). -/
def Exc.code : Exc → Nat
  | .instrMisaligned => 0
  | .instrAccessFault => 1
  | .illegalInstruction => 2
  | .breakpoint => 3
  | .loadMisaligned => 4
  | .loadAccessFault => 5
  | .storeMisaligned => 6
  | .storeAccessFault => 7
  | .ecallU => 8
  | .ecallS => 9
  | .ecallM => 11
  | .instrPageFault => 12
  | .loadPageFault => 13
  | .storePageFault => 15

/-- The interrupt codes (R402). -/
def Irq.code : Irq → Nat
  | .ssi => 1
  | .msi => 3
  | .sti => 5
  | .mti => 7
  | .sei => 9
  | .mei => 11

/-- The code without the INT bit. -/
def Cause.code : Cause → Nat
  | .exc e => e.code
  | .irq i => i.code

/-- The value written to xCAUSE (R431). -/
def Cause.word : Cause → Word
  | .exc e => BitVec.ofNat 64 e.code
  | .irq i => BitVec.ofNat 64 (2 ^ 63 + i.code)

/-- medeleg as it reads: the hardwired zero bits imposed (R57). -/
def State.medelegValue (s : State) : Word := s.medeleg &&& 0xB3FF#64

/-- mideleg as it reads (R58). -/
def State.midelegValue (s : State) : Word := s.mideleg &&& 0x222#64

/-- mie as it reads (R60). -/
def State.mieValue (s : State) : Word := s.mie &&& 0xAAA#64

/-- mepc and sepc as they read: bits 1:0 are 0 (R67, R77). -/
def epcValue (v : Word) : Word := v &&& ~~~3#64

/-- Whether a cause is delegated to S mode (R414, R415). -/
def delegated (s : State) : Cause → Bool
  | .exc e => s.medelegValue.getLsbD e.code
  | .irq i => s.midelegValue.getLsbD i.code

/-- Whether a trap goes to S mode: delegated and not raised in M mode (R416, R420). -/
def trapToS (s : State) (c : Cause) : Bool := decide (s.priv ≠ .M) && delegated s c

/-- mtvec or stvec without its MODE bits: the base address (R56). -/
def Tvec.baseAddress (v : Tvec) : Word := v.base ++ 0#2

/-- The address a trap goes to (R435). -/
def vectorTarget (b : Board) (v : Tvec) (c : Cause) : Word :=
  let vectors := match c with
    | .irq _ => true
    | .exc _ => b.vectorExceptions
  if v.vectored && vectors then v.baseAddress + BitVec.ofNat 64 (4 * c.code) else v.baseAddress

/-- mstatus after a trap into M mode from mode `p` (R434). -/
def Mstatus.enterM (m : Mstatus) (p : Priv) : Mstatus := { m with mpie := m.mie, mie := false, mpp := p }

/-- mstatus after a trap into S mode from mode `p` (R434). -/
def Mstatus.enterS (m : Mstatus) (p : Priv) : Mstatus :=
  { m with spie := m.sie, sie := false, spp := decide (p = .S) }

/-- TAKING A TRAP (R430 to R435): the one operation through which every exception and every interrupt goes.
The target mode's cause, epc and tval registers and status fields are written, the mode and the pc change, and
nothing else. -/
def takeTrap (s : State) (c : Cause) (epc tval : Word) : State :=
  let toS := trapToS s c
  { s with
    scause := if toS then c.word else s.scause
    sepc := if toS then epcValue epc else s.sepc
    stval := if toS then tval else s.stval
    mcause := if toS then s.mcause else c.word
    mepc := if toS then s.mepc else epcValue epc
    mtval := if toS then s.mtval else tval
    mstatus := if toS then s.mstatus.enterS s.priv else s.mstatus.enterM s.priv
    priv := if toS then .S else .M
    pc := vectorTarget s.board (if toS then s.stvec else s.mtvec) c }

/-- `raise E(tval)` for an exception whose saved pc is the instruction's own (R10, R432). -/
def State.raise (s : State) (e : Exc) (tval : Word) : State := takeTrap s (.exc e) s.pc tval

/-- ECALL and EBREAK: the saved pc is the next instruction's and the trap value the instruction's own address
(R371, R372, R432, R433). -/
def State.raiseCall (s : State) (e : Exc) : State := takeTrap s (.exc e) s.nextPc s.pc

/-- An illegal instruction: the trap value is the instruction word (R370, R433). -/
def State.raiseIllegal (s : State) (w : InstrWord) : State := s.raise .illegalInstruction (w.setWidth 64)

/-! ## Return from a trap -/

/-- The effect of MRET (R379, R440); the instruction retires at mepc. -/
def returnM (s : State) : State :=
  let m := s.mstatus
  { s with priv := m.mpp, mstatus := { m with mie := m.mpie, mpie := true, mpp := .U } }.retire
    (epcValue s.mepc)

/-- The effect of SRET (R380, R440); the instruction retires at sepc. -/
def returnS (s : State) : State :=
  let m := s.mstatus
  { s with
    priv := if m.spp then .S else .U
    mstatus := { m with sie := m.spie, spie := true, spp := false } }.retire (epcValue s.sepc)

/-! ## Interrupts (R59, R410 to R422) -/

/-- Whether an interrupt is pending: the bit of mip as a read returns it (R59, R410 to R412). -/
def pending (s : State) : Irq → Bool
  | .ssi => s.ssip
  | .msi => s.msip
  | .sti => s.stip
  | .mti => decide (s.mtimecmp.toNat ≤ s.mtime.toNat)
  | .sei => s.seipSw || s.extSei
  | .mei => s.extMei

/-- `en(i)`, the interrupt's bit of mie (R421). -/
def enabled (s : State) (i : Irq) : Bool := s.mieValue.getLsbD i.code

/-- `takeM(i)` (R421). The enable stands first, so that a masked line is never looked at. -/
def takeM (s : State) (i : Irq) : Bool :=
  (decide (s.priv ≠ .M) || s.mstatus.mie) && enabled s i && !delegated s (.irq i) && pending s i

/-- `takeS(i)` (R421). -/
def takeS (s : State) (i : Irq) : Bool :=
  (decide (s.priv = .U) || (decide (s.priv = .S) && s.mstatus.sie)) && enabled s i &&
    delegated s (.irq i) && pending s i

/-- The order of simultaneous interrupts within a target mode (R422). -/
def irqPriority : List Irq := [.mei, .msi, .mti, .sei, .ssi, .sti]

/-- The interrupt taken at this instruction boundary, if one is: M-targeted before S-targeted (R421, R422). -/
def interruptTaken (s : State) : Option Irq :=
  match irqPriority.find? (takeM s) with
  | some i => some i
  | none => irqPriority.find? (takeS s)

/-! ## The memory primitives (R10, R124 to R129) -/

/-- The effective privilege of a data access (R127). -/
def State.dataPriv (s : State) : Priv := if s.mstatus.mprv then s.mstatus.mpp else s.priv

/-- The half of a doubleword at offset 4 where `high`, else at offset 0. -/
def halfOf (d : Word) (high : Bool) : InstrWord := if high then d.extractLsb' 32 32 else d.extractLsb' 0 32

/-- The older values of the instruction word at a physical address: what it held since the last FENCE.I, but
for values equal to the current one (R162). -/
def staleWords (s : State) (a : Nat) (cur : InstrWord) : List InstrWord :=
  s.codeHistory.filterMap (fun h =>
    let old := halfOf h.2 (decide (a % 8 = 4))
    if h.1 = doublewordOf a ∧ old ≠ cur then some old else none)

/-- The word a fetch returns at a physical address: the one in memory, or one it held since the last FENCE.I
(R162, U6; log 9). Where a device answers it is a draw, so that a fetch after a store to MSIP_ADDR may see the old or
the new value of `msip_reg`, before a FENCE.I and after (`implicitRead`; DESIGN CHOICE, safe; log 28). -/
def fetchedWord (s : State) (pa : Word) : InstrWord :=
  let cur := (implicitRead s pa 4 (.data .fetch)).setWidth 32
  if responder s.board pa.toNat 4 = .ram then
    pickVersion cur (staleWords s pa.toNat cur) (Config.fetchPick s.tick)
  else cur

/-- `Fetch(addr)` (R124): the word and the state with A updated, or the exception. Fetch uses `priv`. -/
def fetchWord (s : State) (va : Word) : Except Exc (InstrWord × State) :=
  match resolve s va .fetch s.priv 4 with
  | .error e => .error e
  | .ok (pa, s1) => .ok (fetchedWord s1 pa, s1)

/-- The checks of a data access in their order (R125, R126): alignment, translation and protection, physical
check. -/
def resolveData (s : State) (va : Word) (t : Access) (w : Width) : Except Exc (Word × State) :=
  if misaligned va w.bytes then .error (misalignedExc t) else resolve s va t s.dataPriv w.bytes

/-- `MemRead(addr, n)` (R125). -/
def memRead (s : State) (va : Word) (w : Width) : Except Exc (Word × State) :=
  match resolveData s va .load w with
  | .error e => .error e
  | .ok (pa, s1) => .ok (physRead s1 pa w.bytes (.data .load), s1)

/-- `MemWrite(addr, n, v)` (R125). -/
def memWrite (s : State) (va : Word) (w : Width) (v : Word) : Except Exc State :=
  match resolveData s va .store w with
  | .error e => .error e
  | .ok (pa, s1) => .ok (physWrite s1 pa w.bytes v)

/-- `MemAmo(addr, n, f)` (R129): checked as a store; the old value and the state with `f` of it stored. -/
def memAmo (s : State) (va : Word) (w : Width) (f : Word → Word) : Except Exc (Word × State) :=
  match resolveData s va .store w with
  | .error e => .error e
  | .ok (pa, s1) =>
    let old := physRead s1 pa w.bytes (.data .store)
    .ok (old, physWrite s1 pa w.bytes (f old))

/-! ## Shared shapes of the meanings -/

/-- A load: the value at `va`, extended by `ext`, goes to `x[rd]` (R280). -/
def loadTo (s : State) (rd : Reg) (va : Word) (w : Width) (ext : Word → Word) : Result :=
  match memRead s va w with
  | .error e => .next (s.raise e va)
  | .ok (v, s1) => s1.writeAndRetire rd (ext v)

/-- A store of the low bytes of `v` at `va` (R280). -/
def storeFrom (s : State) (va : Word) (w : Width) (v : Word) : Result :=
  match memWrite s va w v with
  | .error e => .next (s.raise e va)
  | .ok s1 => .next (s1.retire s.nextPc)

/-- SC: a store that always succeeds and writes 0 to `x[rd]` (R351, R354). -/
def storeConditional (s : State) (rd : Reg) (va : Word) (w : Width) (v : Word) : Result :=
  match memWrite s va w v with
  | .error e => .next (s.raise e va)
  | .ok s1 => s1.writeAndRetire rd 0#64

/-- An AMO: the old value, extended by `ext`, goes to `x[rd]` (R330). -/
def amoTo (s : State) (rd : Reg) (va : Word) (w : Width) (f : Word → Word) (ext : Word → Word) : Result :=
  match memAmo s va w f with
  | .error e => .next (s.raise e va)
  | .ok (old, s1) => s1.writeAndRetire rd (ext old)

/-- A jump to `target` that writes `link` to `x[rd]`; a misaligned target traps on the jump and writes no
register (R261, R262, R269). -/
def jumpTo (s : State) (rd : Reg) (target : Word) : Result :=
  if misaligned target 4 then .next (s.raise .instrMisaligned target)
  else .next ((s.setReg rd s.nextPc).retire target)

/-- A conditional branch: it jumps where `taken`, and only then can its target trap (R263, R269). -/
def branchTo (s : State) (taken : Bool) (off : BitVec 13) : Result :=
  if taken then
    let target := s.pc + immB off
    if misaligned target 4 then .next (s.raise .instrMisaligned target) else .next (s.retire target)
  else .next (s.retire s.nextPc)

/-! ## What the step does around an instruction -/

/-- The passing of time after a step that answered a next state. -/
def elapseResult : Result → Result
  | .next s => .next s.elapse
  | .fault r => .fault r
  | .refused r => .refused r

/-- The physical address the fetch at the pc reads, where it reads one. -/
def fetchAddress (s : State) : Nat :=
  match translateVa s s.pc .fetch s.priv with
  | .ok tr => tr.pa.toNat
  | .error _ => s.pc.toNat

/-- An instruction word placed where the next fetch reads: four bytes of memory, and no stale version of
them (log 7). -/
def placeWord (s : State) (w : InstrWord) : State :=
  let a := fetchAddress s
  { s with
    mem := s.mem.store a (w.setWidth 64) 4
    codeHistory := s.codeHistory.filter (fun h => h.1 ≠ doublewordOf a) }

end Sys2Proof.Machine
end

