-- ==== Sys2Proof/Machine/Atomic.lean ====
section
/-! DEFINITION. The RV64A instructions (spec/45_rv64a_atomic.md): the address is `x[rs1]`, and `aq` and `rl` have no
effect (R330, R353). -/

namespace Sys2Proof.Machine

/-- A 32-bit function of the memory word and the low word of `x[rs2]`, as `MemAmo` takes it (R330). -/
def onWords (f : BitVec 32 → BitVec 32 → BitVec 32) (src old : Word) : Word :=
  (f (low32 old) (low32 src)).setWidth 64

/-- `AMOSWAP.W` (R331). -/
def execAmoswapW (_aq _rl : BitVec 1) (rd rs1 rs2 : Reg) (s : State) : Result :=
  amoTo s rd (s.reg rs1) .word (onWords (fun _ src => src) (s.reg rs2)) (Width.signExtend .word)

/-- `AMOSWAP.D` (R332). -/
def execAmoswapD (_aq _rl : BitVec 1) (rd rs1 rs2 : Reg) (s : State) : Result :=
  amoTo s rd (s.reg rs1) .double (fun _ => s.reg rs2) (Width.zeroExtend .double)

/-- `AMOADD.W` (R333). -/
def execAmoaddW (_aq _rl : BitVec 1) (rd rs1 rs2 : Reg) (s : State) : Result :=
  amoTo s rd (s.reg rs1) .word (onWords (fun old src => old + src) (s.reg rs2)) (Width.signExtend .word)

/-- `AMOADD.D` (R334). -/
def execAmoaddD (_aq _rl : BitVec 1) (rd rs1 rs2 : Reg) (s : State) : Result :=
  amoTo s rd (s.reg rs1) .double (fun old => old + s.reg rs2) (Width.zeroExtend .double)

/-- `AMOAND.W` (R335). -/
def execAmoandW (_aq _rl : BitVec 1) (rd rs1 rs2 : Reg) (s : State) : Result :=
  amoTo s rd (s.reg rs1) .word (onWords (fun old src => old &&& src) (s.reg rs2)) (Width.signExtend .word)

/-- `AMOAND.D` (R336). -/
def execAmoandD (_aq _rl : BitVec 1) (rd rs1 rs2 : Reg) (s : State) : Result :=
  amoTo s rd (s.reg rs1) .double (fun old => old &&& s.reg rs2) (Width.zeroExtend .double)

/-- `AMOOR.W` (R337). -/
def execAmoorW (_aq _rl : BitVec 1) (rd rs1 rs2 : Reg) (s : State) : Result :=
  amoTo s rd (s.reg rs1) .word (onWords (fun old src => old ||| src) (s.reg rs2)) (Width.signExtend .word)

/-- `AMOOR.D` (R338). -/
def execAmoorD (_aq _rl : BitVec 1) (rd rs1 rs2 : Reg) (s : State) : Result :=
  amoTo s rd (s.reg rs1) .double (fun old => old ||| s.reg rs2) (Width.zeroExtend .double)

/-- `AMOXOR.W` (R339). -/
def execAmoxorW (_aq _rl : BitVec 1) (rd rs1 rs2 : Reg) (s : State) : Result :=
  amoTo s rd (s.reg rs1) .word (onWords (fun old src => old ^^^ src) (s.reg rs2)) (Width.signExtend .word)

/-- `AMOXOR.D` (R340). -/
def execAmoxorD (_aq _rl : BitVec 1) (rd rs1 rs2 : Reg) (s : State) : Result :=
  amoTo s rd (s.reg rs1) .double (fun old => old ^^^ s.reg rs2) (Width.zeroExtend .double)

/-- `AMOMAX.W` (R341). -/
def execAmomaxW (_aq _rl : BitVec 1) (rd rs1 rs2 : Reg) (s : State) : Result :=
  amoTo s rd (s.reg rs1) .word (onWords maxSigned (s.reg rs2)) (Width.signExtend .word)

/-- `AMOMAX.D` (R342). -/
def execAmomaxD (_aq _rl : BitVec 1) (rd rs1 rs2 : Reg) (s : State) : Result :=
  amoTo s rd (s.reg rs1) .double (fun old => maxSigned old (s.reg rs2)) (Width.zeroExtend .double)

/-- `AMOMIN.W` (R343). -/
def execAmominW (_aq _rl : BitVec 1) (rd rs1 rs2 : Reg) (s : State) : Result :=
  amoTo s rd (s.reg rs1) .word (onWords minSigned (s.reg rs2)) (Width.signExtend .word)

/-- `AMOMIN.D` (R344). -/
def execAmominD (_aq _rl : BitVec 1) (rd rs1 rs2 : Reg) (s : State) : Result :=
  amoTo s rd (s.reg rs1) .double (fun old => minSigned old (s.reg rs2)) (Width.zeroExtend .double)

/-- `AMOMAXU.W` (R345). -/
def execAmomaxuW (_aq _rl : BitVec 1) (rd rs1 rs2 : Reg) (s : State) : Result :=
  amoTo s rd (s.reg rs1) .word (onWords maxUnsigned (s.reg rs2)) (Width.signExtend .word)

/-- `AMOMAXU.D` (R346). -/
def execAmomaxuD (_aq _rl : BitVec 1) (rd rs1 rs2 : Reg) (s : State) : Result :=
  amoTo s rd (s.reg rs1) .double (fun old => maxUnsigned old (s.reg rs2)) (Width.zeroExtend .double)

/-- `AMOMINU.W` (R347). -/
def execAmominuW (_aq _rl : BitVec 1) (rd rs1 rs2 : Reg) (s : State) : Result :=
  amoTo s rd (s.reg rs1) .word (onWords minUnsigned (s.reg rs2)) (Width.signExtend .word)

/-- `AMOMINU.D` (R348). -/
def execAmominuD (_aq _rl : BitVec 1) (rd rs1 rs2 : Reg) (s : State) : Result :=
  amoTo s rd (s.reg rs1) .double (fun old => minUnsigned old (s.reg rs2)) (Width.zeroExtend .double)

/-- `LR.W` (R349): a load; no reservation exists (R354). -/
def execLrW (_aq _rl : BitVec 1) (rd rs1 : Reg) (s : State) : Result :=
  loadTo s rd (s.reg rs1) .word (Width.signExtend .word)

/-- `LR.D` (R350): a load; no reservation exists (R354). -/
def execLrD (_aq _rl : BitVec 1) (rd rs1 : Reg) (s : State) : Result :=
  loadTo s rd (s.reg rs1) .double (Width.zeroExtend .double)

/-- `SC.W` (R351): a store that always succeeds (R354). -/
def execScW (_aq _rl : BitVec 1) (rd rs1 rs2 : Reg) (s : State) : Result :=
  storeConditional s rd (s.reg rs1) .word (s.reg rs2)

/-- `SC.D` (R352): a store that always succeeds (R354). -/
def execScD (_aq _rl : BitVec 1) (rd rs1 rs2 : Reg) (s : State) : Result :=
  storeConditional s rd (s.reg rs1) .double (s.reg rs2)

end Sys2Proof.Machine
end

