-- ==== Sys2Proof/Machine/Control.lean ====
section
/-! DEFINITION. The RV64I control-transfer instructions (spec/41_rv64i_control.md). -/

namespace Sys2Proof.Machine

/-- `JAL` (R261). -/
def execJal (rd : Reg) (off : BitVec 21) (s : State) : Result := jumpTo s rd (s.pc + immJ off)

/-- `JALR` (R262): bit 0 of the sum is cleared, and the sum uses `x[rs1]` as it was. -/
def execJalr (rd rs1 : Reg) (imm : BitVec 12) (s : State) : Result :=
  jumpTo s rd ((s.reg rs1 + immI imm) &&& ~~~1#64)

/-- `BEQ` (R263). -/
def execBeq (rs1 rs2 : Reg) (off : BitVec 13) (s : State) : Result :=
  branchTo s (decide (s.reg rs1 = s.reg rs2)) off

/-- `BNE` (R264). -/
def execBne (rs1 rs2 : Reg) (off : BitVec 13) (s : State) : Result :=
  branchTo s (decide (s.reg rs1 ≠ s.reg rs2)) off

/-- `BLT` (R265). -/
def execBlt (rs1 rs2 : Reg) (off : BitVec 13) (s : State) : Result :=
  branchTo s (lessSigned (s.reg rs1) (s.reg rs2)) off

/-- `BLTU` (R266). -/
def execBltu (rs1 rs2 : Reg) (off : BitVec 13) (s : State) : Result :=
  branchTo s (lessUnsigned (s.reg rs1) (s.reg rs2)) off

/-- `BGE` (R267). -/
def execBge (rs1 rs2 : Reg) (off : BitVec 13) (s : State) : Result :=
  branchTo s (!lessSigned (s.reg rs1) (s.reg rs2)) off

/-- `BGEU` (R268). -/
def execBgeu (rs1 rs2 : Reg) (off : BitVec 13) (s : State) : Result :=
  branchTo s (!lessUnsigned (s.reg rs1) (s.reg rs2)) off

end Sys2Proof.Machine
end

