-- ==== Sys2Proof/Machine/Fence.lean ====
section
/-! DEFINITION. The RV64I memory barriers (spec/44_rv64i_fence.md). -/

namespace Sys2Proof.Machine

/-- `FENCE` (R320): every field is ignored (R208), and in program order with one agent nothing else changes
(R160, R161). -/
def execFence (_fm _pred _succ : BitVec 4) (_rd _rs1 : Reg) (s : State) : Result := .next (s.retire s.nextPc)

/-- `FENCE.I` (R321): every field is ignored (R208); every later fetch sees memory as it is now or later
(R162). -/
def execFenceI (_imm : BitVec 12) (_rd _rs1 : Reg) (s : State) : Result :=
  .next ({ s with codeHistory := [] }.retire s.nextPc)

end Sys2Proof.Machine
end

