-- ==== Sys2Proof/Machine/Integer.lean ====
section
/-! DEFINITION. The RV64I integer computational instructions (spec/40_rv64i_integer.md): each writes `x[rd]`
and goes to the next instruction (R230). -/

namespace Sys2Proof.Machine

/-- `LUI` (R231). -/
def execLui (rd : Reg) (imm : BitVec 20) (s : State) : Result := s.writeAndRetire rd (immU imm)

/-- `AUIPC` (R232). -/
def execAuipc (rd : Reg) (imm : BitVec 20) (s : State) : Result := s.writeAndRetire rd (s.pc + immU imm)

/-- `ADDI` (R233). -/
def execAddi (rd rs1 : Reg) (imm : BitVec 12) (s : State) : Result :=
  s.writeAndRetire rd (s.reg rs1 + immI imm)

/-- `SLTI` (R234). -/
def execSlti (rd rs1 : Reg) (imm : BitVec 12) (s : State) : Result :=
  s.writeAndRetire rd (boolWord (lessSigned (s.reg rs1) (immI imm)))

/-- `SLTIU` (R235). -/
def execSltiu (rd rs1 : Reg) (imm : BitVec 12) (s : State) : Result :=
  s.writeAndRetire rd (boolWord (lessUnsigned (s.reg rs1) (immI imm)))

/-- `ANDI` (R236). -/
def execAndi (rd rs1 : Reg) (imm : BitVec 12) (s : State) : Result :=
  s.writeAndRetire rd (s.reg rs1 &&& immI imm)

/-- `ORI` (R237). -/
def execOri (rd rs1 : Reg) (imm : BitVec 12) (s : State) : Result :=
  s.writeAndRetire rd (s.reg rs1 ||| immI imm)

/-- `XORI` (R238). -/
def execXori (rd rs1 : Reg) (imm : BitVec 12) (s : State) : Result :=
  s.writeAndRetire rd (s.reg rs1 ^^^ immI imm)

/-- `SLLI` (R239). -/
def execSlli (rd rs1 : Reg) (shamt : BitVec 6) (s : State) : Result :=
  s.writeAndRetire rd (s.reg rs1 <<< shamt.toNat)

/-- `SRLI` (R240). -/
def execSrli (rd rs1 : Reg) (shamt : BitVec 6) (s : State) : Result :=
  s.writeAndRetire rd (s.reg rs1 >>> shamt.toNat)

/-- `SRAI` (R241). -/
def execSrai (rd rs1 : Reg) (shamt : BitVec 6) (s : State) : Result :=
  s.writeAndRetire rd ((s.reg rs1).sshiftRight shamt.toNat)

/-- `ADD` (R242). -/
def execAdd (rd rs1 rs2 : Reg) (s : State) : Result := s.writeAndRetire rd (s.reg rs1 + s.reg rs2)

/-- `SUB` (R243). -/
def execSub (rd rs1 rs2 : Reg) (s : State) : Result := s.writeAndRetire rd (s.reg rs1 - s.reg rs2)

/-- `SLT` (R244). -/
def execSlt (rd rs1 rs2 : Reg) (s : State) : Result :=
  s.writeAndRetire rd (boolWord (lessSigned (s.reg rs1) (s.reg rs2)))

/-- `SLTU` (R245). -/
def execSltu (rd rs1 rs2 : Reg) (s : State) : Result :=
  s.writeAndRetire rd (boolWord (lessUnsigned (s.reg rs1) (s.reg rs2)))

/-- `AND` (R246). -/
def execAnd (rd rs1 rs2 : Reg) (s : State) : Result := s.writeAndRetire rd (s.reg rs1 &&& s.reg rs2)

/-- `OR` (R247). -/
def execOr (rd rs1 rs2 : Reg) (s : State) : Result := s.writeAndRetire rd (s.reg rs1 ||| s.reg rs2)

/-- `XOR` (R248). -/
def execXor (rd rs1 rs2 : Reg) (s : State) : Result := s.writeAndRetire rd (s.reg rs1 ^^^ s.reg rs2)

/-- `SLL` (R249). -/
def execSll (rd rs1 rs2 : Reg) (s : State) : Result := s.writeAndRetire rd (s.reg rs1 <<< shamt6 (s.reg rs2))

/-- `SRL` (R250). -/
def execSrl (rd rs1 rs2 : Reg) (s : State) : Result := s.writeAndRetire rd (s.reg rs1 >>> shamt6 (s.reg rs2))

/-- `SRA` (R251). -/
def execSra (rd rs1 rs2 : Reg) (s : State) : Result :=
  s.writeAndRetire rd ((s.reg rs1).sshiftRight (shamt6 (s.reg rs2)))

end Sys2Proof.Machine
end

