-- ==== Sys2Proof/Machine/LoadStore.lean ====
section
/-! DEFINITION. The RV64I loads and stores (spec/42_rv64i_loadstore.md): the address is `x[rs1] + imm` (R280). -/

namespace Sys2Proof.Machine

/-- `LB` (R281). -/
def execLb (rd rs1 : Reg) (imm : BitVec 12) (s : State) : Result :=
  loadTo s rd (s.reg rs1 + immI imm) .byte (Width.signExtend .byte)

/-- `LBU` (R282). -/
def execLbu (rd rs1 : Reg) (imm : BitVec 12) (s : State) : Result :=
  loadTo s rd (s.reg rs1 + immI imm) .byte (Width.zeroExtend .byte)

/-- `LH` (R283). -/
def execLh (rd rs1 : Reg) (imm : BitVec 12) (s : State) : Result :=
  loadTo s rd (s.reg rs1 + immI imm) .half (Width.signExtend .half)

/-- `LHU` (R284). -/
def execLhu (rd rs1 : Reg) (imm : BitVec 12) (s : State) : Result :=
  loadTo s rd (s.reg rs1 + immI imm) .half (Width.zeroExtend .half)

/-- `LW` (R285). -/
def execLw (rd rs1 : Reg) (imm : BitVec 12) (s : State) : Result :=
  loadTo s rd (s.reg rs1 + immI imm) .word (Width.signExtend .word)

/-- `LWU` (R286). -/
def execLwu (rd rs1 : Reg) (imm : BitVec 12) (s : State) : Result :=
  loadTo s rd (s.reg rs1 + immI imm) .word (Width.zeroExtend .word)

/-- `LD` (R287). -/
def execLd (rd rs1 : Reg) (imm : BitVec 12) (s : State) : Result :=
  loadTo s rd (s.reg rs1 + immI imm) .double (Width.zeroExtend .double)

/-- `SB` (R288). -/
def execSb (rs1 rs2 : Reg) (imm : BitVec 12) (s : State) : Result :=
  storeFrom s (s.reg rs1 + immI imm) .byte (s.reg rs2)

/-- `SH` (R289). -/
def execSh (rs1 rs2 : Reg) (imm : BitVec 12) (s : State) : Result :=
  storeFrom s (s.reg rs1 + immI imm) .half (s.reg rs2)

/-- `SW` (R290). -/
def execSw (rs1 rs2 : Reg) (imm : BitVec 12) (s : State) : Result :=
  storeFrom s (s.reg rs1 + immI imm) .word (s.reg rs2)

/-- `SD` (R291). -/
def execSd (rs1 rs2 : Reg) (imm : BitVec 12) (s : State) : Result :=
  storeFrom s (s.reg rs1 + immI imm) .double (s.reg rs2)

end Sys2Proof.Machine
end

