-- ==== Sys2Proof/Syntax.lean ====
section
/-! DEFINITION. The instructions of the PRV464SXR: one constructor per row of spec/opcode_table.json
(spec/30_encoding.md R196 to R201). A constructor carries every field of its encoding, the fields the
machine ignores among them (R163, R208, R381), so that the instruction word can be rebuilt for the trap
value of an illegal instruction (R433). -/

namespace Sys2Proof

/-- The 85 instructions (R5). -/
inductive Instr where
  -- RV64I integer computational instructions (spec/40_rv64i_integer.md)
  /-- `LUI` (R231). -/
  | lui (rd : Reg) (imm : BitVec 20)
  /-- `AUIPC` (R232). -/
  | auipc (rd : Reg) (imm : BitVec 20)
  /-- `ADDI` (R233). -/
  | addi (rd rs1 : Reg) (imm : BitVec 12)
  /-- `SLTI` (R234). -/
  | slti (rd rs1 : Reg) (imm : BitVec 12)
  /-- `SLTIU` (R235). -/
  | sltiu (rd rs1 : Reg) (imm : BitVec 12)
  /-- `ANDI` (R236). -/
  | andi (rd rs1 : Reg) (imm : BitVec 12)
  /-- `ORI` (R237). -/
  | ori (rd rs1 : Reg) (imm : BitVec 12)
  /-- `XORI` (R238). -/
  | xori (rd rs1 : Reg) (imm : BitVec 12)
  /-- `SLLI` (R239). -/
  | slli (rd rs1 : Reg) (shamt : BitVec 6)
  /-- `SRLI` (R240). -/
  | srli (rd rs1 : Reg) (shamt : BitVec 6)
  /-- `SRAI` (R241). -/
  | srai (rd rs1 : Reg) (shamt : BitVec 6)
  /-- `ADD` (R242). -/
  | add (rd rs1 rs2 : Reg)
  /-- `SUB` (R243). -/
  | sub (rd rs1 rs2 : Reg)
  /-- `SLT` (R244). -/
  | slt (rd rs1 rs2 : Reg)
  /-- `SLTU` (R245). -/
  | sltu (rd rs1 rs2 : Reg)
  /-- `AND` (R246). -/
  | and (rd rs1 rs2 : Reg)
  /-- `OR` (R247). -/
  | or (rd rs1 rs2 : Reg)
  /-- `XOR` (R248). -/
  | xor (rd rs1 rs2 : Reg)
  /-- `SLL` (R249). -/
  | sll (rd rs1 rs2 : Reg)
  /-- `SRL` (R250). -/
  | srl (rd rs1 rs2 : Reg)
  /-- `SRA` (R251). -/
  | sra (rd rs1 rs2 : Reg)
  -- RV64I control transfer (spec/41_rv64i_control.md); `off` is the byte offset, which the encoding holds without its bit 0
  /-- `JAL` (R261). -/
  | jal (rd : Reg) (off : BitVec 21)
  /-- `JALR` (R262). -/
  | jalr (rd rs1 : Reg) (imm : BitVec 12)
  /-- `BEQ` (R263). -/
  | beq (rs1 rs2 : Reg) (off : BitVec 13)
  /-- `BNE` (R264). -/
  | bne (rs1 rs2 : Reg) (off : BitVec 13)
  /-- `BLT` (R265). -/
  | blt (rs1 rs2 : Reg) (off : BitVec 13)
  /-- `BLTU` (R266). -/
  | bltu (rs1 rs2 : Reg) (off : BitVec 13)
  /-- `BGE` (R267). -/
  | bge (rs1 rs2 : Reg) (off : BitVec 13)
  /-- `BGEU` (R268). -/
  | bgeu (rs1 rs2 : Reg) (off : BitVec 13)
  -- RV64I loads and stores (spec/42_rv64i_loadstore.md)
  /-- `LB` (R281). -/
  | lb (rd rs1 : Reg) (imm : BitVec 12)
  /-- `LBU` (R282). -/
  | lbu (rd rs1 : Reg) (imm : BitVec 12)
  /-- `LH` (R283). -/
  | lh (rd rs1 : Reg) (imm : BitVec 12)
  /-- `LHU` (R284). -/
  | lhu (rd rs1 : Reg) (imm : BitVec 12)
  /-- `LW` (R285). -/
  | lw (rd rs1 : Reg) (imm : BitVec 12)
  /-- `LWU` (R286). -/
  | lwu (rd rs1 : Reg) (imm : BitVec 12)
  /-- `LD` (R287). -/
  | ld (rd rs1 : Reg) (imm : BitVec 12)
  /-- `SB` (R288). -/
  | sb (rs1 rs2 : Reg) (imm : BitVec 12)
  /-- `SH` (R289). -/
  | sh (rs1 rs2 : Reg) (imm : BitVec 12)
  /-- `SW` (R290). -/
  | sw (rs1 rs2 : Reg) (imm : BitVec 12)
  /-- `SD` (R291). -/
  | sd (rs1 rs2 : Reg) (imm : BitVec 12)
  -- RV64I word forms (spec/43_rv64i_word.md)
  /-- `ADDIW` (R301). -/
  | addiw (rd rs1 : Reg) (imm : BitVec 12)
  /-- `SLLIW` (R302). -/
  | slliw (rd rs1 : Reg) (shamt : BitVec 5)
  /-- `SRLIW` (R303). -/
  | srliw (rd rs1 : Reg) (shamt : BitVec 5)
  /-- `SRAIW` (R304). -/
  | sraiw (rd rs1 : Reg) (shamt : BitVec 5)
  /-- `ADDW` (R305). -/
  | addw (rd rs1 rs2 : Reg)
  /-- `SUBW` (R306). -/
  | subw (rd rs1 rs2 : Reg)
  /-- `SLLW` (R307). -/
  | sllw (rd rs1 rs2 : Reg)
  /-- `SRLW` (R308). -/
  | srlw (rd rs1 rs2 : Reg)
  /-- `SRAW` (R309). -/
  | sraw (rd rs1 rs2 : Reg)
  -- RV64I fences (spec/44_rv64i_fence.md); every field is ignored by the machine
  /-- `FENCE` (R320). -/
  | fence (fm pred succ : BitVec 4) (rd rs1 : Reg)
  /-- `FENCE.I` (R321). -/
  | fenceI (imm : BitVec 12) (rd rs1 : Reg)
  -- RV64A (spec/45_rv64a_atomic.md); `aq` and `rl` are ignored by the machine
  /-- `AMOSWAP.W` (R331). -/
  | amoswapW (aq rl : BitVec 1) (rd rs1 rs2 : Reg)
  /-- `AMOSWAP.D` (R332). -/
  | amoswapD (aq rl : BitVec 1) (rd rs1 rs2 : Reg)
  /-- `AMOADD.W` (R333). -/
  | amoaddW (aq rl : BitVec 1) (rd rs1 rs2 : Reg)
  /-- `AMOADD.D` (R334). -/
  | amoaddD (aq rl : BitVec 1) (rd rs1 rs2 : Reg)
  /-- `AMOAND.W` (R335). -/
  | amoandW (aq rl : BitVec 1) (rd rs1 rs2 : Reg)
  /-- `AMOAND.D` (R336). -/
  | amoandD (aq rl : BitVec 1) (rd rs1 rs2 : Reg)
  /-- `AMOOR.W` (R337). -/
  | amoorW (aq rl : BitVec 1) (rd rs1 rs2 : Reg)
  /-- `AMOOR.D` (R338). -/
  | amoorD (aq rl : BitVec 1) (rd rs1 rs2 : Reg)
  /-- `AMOXOR.W` (R339). -/
  | amoxorW (aq rl : BitVec 1) (rd rs1 rs2 : Reg)
  /-- `AMOXOR.D` (R340). -/
  | amoxorD (aq rl : BitVec 1) (rd rs1 rs2 : Reg)
  /-- `AMOMAX.W` (R341). -/
  | amomaxW (aq rl : BitVec 1) (rd rs1 rs2 : Reg)
  /-- `AMOMAX.D` (R342). -/
  | amomaxD (aq rl : BitVec 1) (rd rs1 rs2 : Reg)
  /-- `AMOMIN.W` (R343). -/
  | amominW (aq rl : BitVec 1) (rd rs1 rs2 : Reg)
  /-- `AMOMIN.D` (R344). -/
  | amominD (aq rl : BitVec 1) (rd rs1 rs2 : Reg)
  /-- `AMOMAXU.W` (R345). -/
  | amomaxuW (aq rl : BitVec 1) (rd rs1 rs2 : Reg)
  /-- `AMOMAXU.D` (R346). -/
  | amomaxuD (aq rl : BitVec 1) (rd rs1 rs2 : Reg)
  /-- `AMOMINU.W` (R347). -/
  | amominuW (aq rl : BitVec 1) (rd rs1 rs2 : Reg)
  /-- `AMOMINU.D` (R348). -/
  | amominuD (aq rl : BitVec 1) (rd rs1 rs2 : Reg)
  /-- `LR.W` (R349). -/
  | lrW (aq rl : BitVec 1) (rd rs1 : Reg)
  /-- `LR.D` (R350). -/
  | lrD (aq rl : BitVec 1) (rd rs1 : Reg)
  /-- `SC.W` (R351). -/
  | scW (aq rl : BitVec 1) (rd rs1 rs2 : Reg)
  /-- `SC.D` (R352). -/
  | scD (aq rl : BitVec 1) (rd rs1 rs2 : Reg)
  -- SYSTEM (spec/46_system.md)
  /-- `ECALL` (R371). -/
  | ecall
  /-- `EBREAK` (R372). -/
  | ebreak
  /-- `CSRRW` (R373). -/
  | csrrw (rd : Reg) (csr : CsrAddr) (rs1 : Reg)
  /-- `CSRRS` (R374). -/
  | csrrs (rd : Reg) (csr : CsrAddr) (rs1 : Reg)
  /-- `CSRRC` (R375). -/
  | csrrc (rd : Reg) (csr : CsrAddr) (rs1 : Reg)
  /-- `CSRRWI` (R376). -/
  | csrrwi (rd : Reg) (csr : CsrAddr) (uimm : BitVec 5)
  /-- `CSRRSI` (R377). -/
  | csrrsi (rd : Reg) (csr : CsrAddr) (uimm : BitVec 5)
  /-- `CSRRCI` (R378). -/
  | csrrci (rd : Reg) (csr : CsrAddr) (uimm : BitVec 5)
  /-- `MRET` (R379). -/
  | mret
  /-- `SRET` (R380). -/
  | sret
  /-- `SFENCE.VMA` (R381). -/
  | sfenceVma (rs1 rs2 : Reg)
  /-- `WFI` (R382). -/
  | wfi
  deriving DecidableEq, Repr

end Sys2Proof
end

