-- ==== Sys2Proof/WellFormed.lean ====
section
/-! DEFINITION. Which terms of `Instr` are instructions: those whose operands the encoding can hold. Every
operand has the width of its field, except the byte offsets of JAL and of the branches: bit 0 of a J or B
immediate is always 0 and is not encoded (spec/30_encoding.md R192, R194; spec/41_rv64i_control.md R269,
R272). -/

namespace Sys2Proof

/-- A byte offset of a J or B immediate: its bit 0 is 0 (R194, R269). -/
def evenOffset {n : Nat} (off : BitVec n) : Bool := !off.getLsbD 0

/-- The checks a term must pass to be an instruction. -/
def Instr.wellFormed : Instr → Bool
  | .lui _ _ => true
  | .auipc _ _ => true
  | .addi _ _ _ => true
  | .slti _ _ _ => true
  | .sltiu _ _ _ => true
  | .andi _ _ _ => true
  | .ori _ _ _ => true
  | .xori _ _ _ => true
  | .slli _ _ _ => true
  | .srli _ _ _ => true
  | .srai _ _ _ => true
  | .add _ _ _ => true
  | .sub _ _ _ => true
  | .slt _ _ _ => true
  | .sltu _ _ _ => true
  | .and _ _ _ => true
  | .or _ _ _ => true
  | .xor _ _ _ => true
  | .sll _ _ _ => true
  | .srl _ _ _ => true
  | .sra _ _ _ => true
  | .jal _ off => evenOffset off
  | .jalr _ _ _ => true
  | .beq _ _ off => evenOffset off
  | .bne _ _ off => evenOffset off
  | .blt _ _ off => evenOffset off
  | .bltu _ _ off => evenOffset off
  | .bge _ _ off => evenOffset off
  | .bgeu _ _ off => evenOffset off
  | .lb _ _ _ => true
  | .lbu _ _ _ => true
  | .lh _ _ _ => true
  | .lhu _ _ _ => true
  | .lw _ _ _ => true
  | .lwu _ _ _ => true
  | .ld _ _ _ => true
  | .sb _ _ _ => true
  | .sh _ _ _ => true
  | .sw _ _ _ => true
  | .sd _ _ _ => true
  | .addiw _ _ _ => true
  | .slliw _ _ _ => true
  | .srliw _ _ _ => true
  | .sraiw _ _ _ => true
  | .addw _ _ _ => true
  | .subw _ _ _ => true
  | .sllw _ _ _ => true
  | .srlw _ _ _ => true
  | .sraw _ _ _ => true
  | .fence _ _ _ _ _ => true
  | .fenceI _ _ _ => true
  | .amoswapW _ _ _ _ _ => true
  | .amoswapD _ _ _ _ _ => true
  | .amoaddW _ _ _ _ _ => true
  | .amoaddD _ _ _ _ _ => true
  | .amoandW _ _ _ _ _ => true
  | .amoandD _ _ _ _ _ => true
  | .amoorW _ _ _ _ _ => true
  | .amoorD _ _ _ _ _ => true
  | .amoxorW _ _ _ _ _ => true
  | .amoxorD _ _ _ _ _ => true
  | .amomaxW _ _ _ _ _ => true
  | .amomaxD _ _ _ _ _ => true
  | .amominW _ _ _ _ _ => true
  | .amominD _ _ _ _ _ => true
  | .amomaxuW _ _ _ _ _ => true
  | .amomaxuD _ _ _ _ _ => true
  | .amominuW _ _ _ _ _ => true
  | .amominuD _ _ _ _ _ => true
  | .lrW _ _ _ _ => true
  | .lrD _ _ _ _ => true
  | .scW _ _ _ _ _ => true
  | .scD _ _ _ _ _ => true
  | .ecall => true
  | .ebreak => true
  | .csrrw _ _ _ => true
  | .csrrs _ _ _ => true
  | .csrrc _ _ _ => true
  | .csrrwi _ _ _ => true
  | .csrrsi _ _ _ => true
  | .csrrci _ _ _ => true
  | .mret => true
  | .sret => true
  | .sfenceVma _ _ => true
  | .wfi => true

/-- `Instr.wellFormed` as a proposition. -/
abbrev WellFormed (i : Instr) : Prop := i.wellFormed = true

end Sys2Proof
end

