-- ==== Sys2Proof/Decode.lean ====
section
/-! DEFINITION. The decoder and the encoder (spec/30_encoding.md R190 to R208, the rows of
spec/opcode_table.json). Decoding is total: a word of no row is rejected by name, and the step turns the
rejection into an illegal-instruction exception (R207). The encoder is written from the same formats; it also
gives the trap value of an illegal instruction (spec/60_exceptions.md R433). -/

namespace Sys2Proof

/-- Why a word is no instruction (R207). -/
inductive DecodeError where
  /-- `bits[6:0]` is no major opcode of R196, the 16-bit space among them (R191). -/
  | unknownOpcode
  /-- The major opcode has no instruction with this funct3 (R197, R198, R199, R200). -/
  | reservedFunct3
  /-- The function bits above funct3 (funct7, funct6, funct5, the rs2 field of LR) select no instruction. -/
  | reservedFunct7
  /-- A SYSTEM word with funct3 000 that is none of the six of R200 (URET among them, R385). -/
  | reservedSystem
  /-- Fewer than four bytes were given. -/
  | truncated
  deriving DecidableEq, Repr

/-! ## Fields of an instruction word (R190, R192, R193, R195) -/

/-- The opcode, the low 7 bits `bits[6:0]` (R190 (a)). -/
def fOpcode (w : InstrWord) : BitVec 7 := w.extractLsb' 0 7
/-- `rd = bits[11:7]`. -/
def fRd (w : InstrWord) : Reg := w.extractLsb' 7 5
/-- `funct3 = bits[14:12]`. -/
def fFunct3 (w : InstrWord) : BitVec 3 := w.extractLsb' 12 3
/-- `rs1 = bits[19:15]`. -/
def fRs1 (w : InstrWord) : Reg := w.extractLsb' 15 5
/-- `rs2 = bits[24:20]`. -/
def fRs2 (w : InstrWord) : Reg := w.extractLsb' 20 5
/-- `funct7 = bits[31:25]`. -/
def fFunct7 (w : InstrWord) : BitVec 7 := w.extractLsb' 25 7
/-- `bits[31:26]`, the function code of the 64-bit shift-immediates (R195). -/
def fFunct6 (w : InstrWord) : BitVec 6 := w.extractLsb' 26 6
/-- The 64-bit shift amount `bits[25:20]` (R194). -/
def fShamt6 (w : InstrWord) : BitVec 6 := w.extractLsb' 20 6
/-- `funct5 = bits[31:27]` of an AMO (R195). -/
def fFunct5 (w : InstrWord) : BitVec 5 := w.extractLsb' 27 5
/-- `aq = bits[26]` (R195). -/
def fAq (w : InstrWord) : BitVec 1 := w.extractLsb' 26 1
/-- `rl = bits[25]` (R195). -/
def fRl (w : InstrWord) : BitVec 1 := w.extractLsb' 25 1
/-- The I immediate and the CSR number, `bits[31:20]` (R192, R195). -/
def fImmI (w : InstrWord) : BitVec 12 := w.extractLsb' 20 12
/-- The S immediate, `bits[31:25]` above `bits[11:7]` (R192). -/
def fImmS (w : InstrWord) : BitVec 12 := w.extractLsb' 25 7 ++ w.extractLsb' 7 5
/-- The B byte offset, bits 12, 11, 10:5, 4:1 from `bits[31]`, `bits[7]`, `bits[30:25]`, `bits[11:8]` (R192). -/
def fImmB (w : InstrWord) : BitVec 13 :=
  w.extractLsb' 31 1 ++ w.extractLsb' 7 1 ++ w.extractLsb' 25 6 ++ w.extractLsb' 8 4 ++ 0#1
/-- The U immediate, `bits[31:12]` (R192). -/
def fImmU (w : InstrWord) : BitVec 20 := w.extractLsb' 12 20
/-- The J byte offset, bits 20, 19:12, 11, 10:1 from `bits[31]`, `bits[19:12]`, `bits[20]`, `bits[30:21]` (R192). -/
def fImmJ (w : InstrWord) : BitVec 21 :=
  w.extractLsb' 31 1 ++ w.extractLsb' 12 8 ++ w.extractLsb' 20 1 ++ w.extractLsb' 21 10 ++ 0#1
/-- `fm = bits[31:28]` of a FENCE (R195). -/
def fFm (w : InstrWord) : BitVec 4 := w.extractLsb' 28 4
/-- `pred = bits[27:24]` of a FENCE (R195). -/
def fPred (w : InstrWord) : BitVec 4 := w.extractLsb' 24 4
/-- `succ = bits[23:20]` of a FENCE (R195). -/
def fSucc (w : InstrWord) : BitVec 4 := w.extractLsb' 20 4

/-! ## The decoder, one function per major opcode (R196 to R200) -/

/-- Opcode BRANCH (R198). -/
def decodeBranch (w : InstrWord) : Except DecodeError Instr :=
  if fFunct3 w = 0x0#3 then .ok (.beq (fRs1 w) (fRs2 w) (fImmB w))
  else if fFunct3 w = 0x1#3 then .ok (.bne (fRs1 w) (fRs2 w) (fImmB w))
  else if fFunct3 w = 0x4#3 then .ok (.blt (fRs1 w) (fRs2 w) (fImmB w))
  else if fFunct3 w = 0x5#3 then .ok (.bge (fRs1 w) (fRs2 w) (fImmB w))
  else if fFunct3 w = 0x6#3 then .ok (.bltu (fRs1 w) (fRs2 w) (fImmB w))
  else if fFunct3 w = 0x7#3 then .ok (.bgeu (fRs1 w) (fRs2 w) (fImmB w))
  else .error .reservedFunct3

/-- Opcode LOAD (R198). -/
def decodeLoad (w : InstrWord) : Except DecodeError Instr :=
  if fFunct3 w = 0x0#3 then .ok (.lb (fRd w) (fRs1 w) (fImmI w))
  else if fFunct3 w = 0x1#3 then .ok (.lh (fRd w) (fRs1 w) (fImmI w))
  else if fFunct3 w = 0x2#3 then .ok (.lw (fRd w) (fRs1 w) (fImmI w))
  else if fFunct3 w = 0x3#3 then .ok (.ld (fRd w) (fRs1 w) (fImmI w))
  else if fFunct3 w = 0x4#3 then .ok (.lbu (fRd w) (fRs1 w) (fImmI w))
  else if fFunct3 w = 0x5#3 then .ok (.lhu (fRd w) (fRs1 w) (fImmI w))
  else if fFunct3 w = 0x6#3 then .ok (.lwu (fRd w) (fRs1 w) (fImmI w))
  else .error .reservedFunct3

/-- Opcode STORE (R198). -/
def decodeStore (w : InstrWord) : Except DecodeError Instr :=
  if fFunct3 w = 0x0#3 then .ok (.sb (fRs1 w) (fRs2 w) (fImmS w))
  else if fFunct3 w = 0x1#3 then .ok (.sh (fRs1 w) (fRs2 w) (fImmS w))
  else if fFunct3 w = 0x2#3 then .ok (.sw (fRs1 w) (fRs2 w) (fImmS w))
  else if fFunct3 w = 0x3#3 then .ok (.sd (fRs1 w) (fRs2 w) (fImmS w))
  else .error .reservedFunct3

/-- Opcode OP-IMM (R195, R197). -/
def decodeOpImm (w : InstrWord) : Except DecodeError Instr :=
  if fFunct3 w = 0x0#3 then .ok (.addi (fRd w) (fRs1 w) (fImmI w))
  else if fFunct3 w = 0x2#3 then .ok (.slti (fRd w) (fRs1 w) (fImmI w))
  else if fFunct3 w = 0x3#3 then .ok (.sltiu (fRd w) (fRs1 w) (fImmI w))
  else if fFunct3 w = 0x4#3 then .ok (.xori (fRd w) (fRs1 w) (fImmI w))
  else if fFunct3 w = 0x6#3 then .ok (.ori (fRd w) (fRs1 w) (fImmI w))
  else if fFunct3 w = 0x7#3 then .ok (.andi (fRd w) (fRs1 w) (fImmI w))
  else if fFunct3 w = 0x1#3 then
    if fFunct6 w = 0x00#6 then .ok (.slli (fRd w) (fRs1 w) (fShamt6 w))
    else .error .reservedFunct7
  else if fFunct6 w = 0x00#6 then .ok (.srli (fRd w) (fRs1 w) (fShamt6 w))
  else if fFunct6 w = 0x10#6 then .ok (.srai (fRd w) (fRs1 w) (fShamt6 w))
  else .error .reservedFunct7

/-- Opcode OP-IMM-32 (R195, R197); `bits[25] = 1` is reserved (R300). -/
def decodeOpImm32 (w : InstrWord) : Except DecodeError Instr :=
  if fFunct3 w = 0x0#3 then .ok (.addiw (fRd w) (fRs1 w) (fImmI w))
  else if fFunct3 w = 0x1#3 then
    if fFunct7 w = 0x00#7 then .ok (.slliw (fRd w) (fRs1 w) (fRs2 w))
    else .error .reservedFunct7
  else if fFunct3 w = 0x5#3 then
    if fFunct7 w = 0x00#7 then .ok (.srliw (fRd w) (fRs1 w) (fRs2 w))
    else if fFunct7 w = 0x20#7 then .ok (.sraiw (fRd w) (fRs1 w) (fRs2 w))
    else .error .reservedFunct7
  else .error .reservedFunct3

/-- Opcode OP (R197). -/
def decodeOp (w : InstrWord) : Except DecodeError Instr :=
  if fFunct7 w = 0x00#7 then
    if fFunct3 w = 0x0#3 then .ok (.add (fRd w) (fRs1 w) (fRs2 w))
    else if fFunct3 w = 0x1#3 then .ok (.sll (fRd w) (fRs1 w) (fRs2 w))
    else if fFunct3 w = 0x2#3 then .ok (.slt (fRd w) (fRs1 w) (fRs2 w))
    else if fFunct3 w = 0x3#3 then .ok (.sltu (fRd w) (fRs1 w) (fRs2 w))
    else if fFunct3 w = 0x4#3 then .ok (.xor (fRd w) (fRs1 w) (fRs2 w))
    else if fFunct3 w = 0x5#3 then .ok (.srl (fRd w) (fRs1 w) (fRs2 w))
    else if fFunct3 w = 0x6#3 then .ok (.or (fRd w) (fRs1 w) (fRs2 w))
    else .ok (.and (fRd w) (fRs1 w) (fRs2 w))
  else if fFunct7 w = 0x20#7 then
    if fFunct3 w = 0x0#3 then .ok (.sub (fRd w) (fRs1 w) (fRs2 w))
    else if fFunct3 w = 0x5#3 then .ok (.sra (fRd w) (fRs1 w) (fRs2 w))
    else .error .reservedFunct7
  else .error .reservedFunct7

/-- Opcode OP-32 (R197); the funct3 values without a W form are reserved (R310). -/
def decodeOp32 (w : InstrWord) : Except DecodeError Instr :=
  if fFunct3 w = 0x0#3 then
    if fFunct7 w = 0x00#7 then .ok (.addw (fRd w) (fRs1 w) (fRs2 w))
    else if fFunct7 w = 0x20#7 then .ok (.subw (fRd w) (fRs1 w) (fRs2 w))
    else .error .reservedFunct7
  else if fFunct3 w = 0x1#3 then
    if fFunct7 w = 0x00#7 then .ok (.sllw (fRd w) (fRs1 w) (fRs2 w))
    else .error .reservedFunct7
  else if fFunct3 w = 0x5#3 then
    if fFunct7 w = 0x00#7 then .ok (.srlw (fRd w) (fRs1 w) (fRs2 w))
    else if fFunct7 w = 0x20#7 then .ok (.sraw (fRd w) (fRs1 w) (fRs2 w))
    else .error .reservedFunct7
  else .error .reservedFunct3

/-- Opcode MISC-MEM: every other field is free (R208). -/
def decodeMiscMem (w : InstrWord) : Except DecodeError Instr :=
  if fFunct3 w = 0x0#3 then .ok (.fence (fFm w) (fPred w) (fSucc w) (fRd w) (fRs1 w))
  else if fFunct3 w = 0x1#3 then .ok (.fenceI (fImmI w) (fRd w) (fRs1 w))
  else .error .reservedFunct3

/-- Opcode AMO, the .W forms; the rs2 field of LR is 00000 (R199). -/
def decodeAmoW (w : InstrWord) : Except DecodeError Instr :=
  if fFunct5 w = 0x2#5 then
    if fRs2 w = 0x00#5 then .ok (.lrW (fAq w) (fRl w) (fRd w) (fRs1 w))
    else .error .reservedFunct7
  else if fFunct5 w = 0x3#5 then .ok (.scW (fAq w) (fRl w) (fRd w) (fRs1 w) (fRs2 w))
  else if fFunct5 w = 0x1#5 then .ok (.amoswapW (fAq w) (fRl w) (fRd w) (fRs1 w) (fRs2 w))
  else if fFunct5 w = 0x0#5 then .ok (.amoaddW (fAq w) (fRl w) (fRd w) (fRs1 w) (fRs2 w))
  else if fFunct5 w = 0x4#5 then .ok (.amoxorW (fAq w) (fRl w) (fRd w) (fRs1 w) (fRs2 w))
  else if fFunct5 w = 0xC#5 then .ok (.amoandW (fAq w) (fRl w) (fRd w) (fRs1 w) (fRs2 w))
  else if fFunct5 w = 0x8#5 then .ok (.amoorW (fAq w) (fRl w) (fRd w) (fRs1 w) (fRs2 w))
  else if fFunct5 w = 0x10#5 then .ok (.amominW (fAq w) (fRl w) (fRd w) (fRs1 w) (fRs2 w))
  else if fFunct5 w = 0x14#5 then .ok (.amomaxW (fAq w) (fRl w) (fRd w) (fRs1 w) (fRs2 w))
  else if fFunct5 w = 0x18#5 then .ok (.amominuW (fAq w) (fRl w) (fRd w) (fRs1 w) (fRs2 w))
  else if fFunct5 w = 0x1C#5 then .ok (.amomaxuW (fAq w) (fRl w) (fRd w) (fRs1 w) (fRs2 w))
  else .error .reservedFunct7

/-- Opcode AMO, the .D forms; the rs2 field of LR is 00000 (R199). -/
def decodeAmoD (w : InstrWord) : Except DecodeError Instr :=
  if fFunct5 w = 0x2#5 then
    if fRs2 w = 0x00#5 then .ok (.lrD (fAq w) (fRl w) (fRd w) (fRs1 w))
    else .error .reservedFunct7
  else if fFunct5 w = 0x3#5 then .ok (.scD (fAq w) (fRl w) (fRd w) (fRs1 w) (fRs2 w))
  else if fFunct5 w = 0x1#5 then .ok (.amoswapD (fAq w) (fRl w) (fRd w) (fRs1 w) (fRs2 w))
  else if fFunct5 w = 0x0#5 then .ok (.amoaddD (fAq w) (fRl w) (fRd w) (fRs1 w) (fRs2 w))
  else if fFunct5 w = 0x4#5 then .ok (.amoxorD (fAq w) (fRl w) (fRd w) (fRs1 w) (fRs2 w))
  else if fFunct5 w = 0xC#5 then .ok (.amoandD (fAq w) (fRl w) (fRd w) (fRs1 w) (fRs2 w))
  else if fFunct5 w = 0x8#5 then .ok (.amoorD (fAq w) (fRl w) (fRd w) (fRs1 w) (fRs2 w))
  else if fFunct5 w = 0x10#5 then .ok (.amominD (fAq w) (fRl w) (fRd w) (fRs1 w) (fRs2 w))
  else if fFunct5 w = 0x14#5 then .ok (.amomaxD (fAq w) (fRl w) (fRd w) (fRs1 w) (fRs2 w))
  else if fFunct5 w = 0x18#5 then .ok (.amominuD (fAq w) (fRl w) (fRd w) (fRs1 w) (fRs2 w))
  else if fFunct5 w = 0x1C#5 then .ok (.amomaxuD (fAq w) (fRl w) (fRd w) (fRs1 w) (fRs2 w))
  else .error .reservedFunct7

/-- Opcode AMO: funct3 is the width (R199). -/
def decodeAmo (w : InstrWord) : Except DecodeError Instr :=
  if fFunct3 w = 0x2#3 then decodeAmoW w
  else if fFunct3 w = 0x3#3 then decodeAmoD w
  else .error .reservedFunct3

/-- SYSTEM with funct3 000: five fixed words and SFENCE.VMA (R200). -/
def decodePriv (w : InstrWord) : Except DecodeError Instr :=
  if w = 0x00000073#32 then .ok .ecall
  else if w = 0x00100073#32 then .ok .ebreak
  else if w = 0x10200073#32 then .ok .sret
  else if w = 0x30200073#32 then .ok .mret
  else if w = 0x10500073#32 then .ok .wfi
  else if fFunct7 w = 0x09#7 then
    if fRd w = 0x00#5 then .ok (.sfenceVma (fRs1 w) (fRs2 w))
    else .error .reservedSystem
  else .error .reservedSystem

/-- Opcode SYSTEM (R200). -/
def decodeSystem (w : InstrWord) : Except DecodeError Instr :=
  if fFunct3 w = 0x0#3 then decodePriv w
  else if fFunct3 w = 0x1#3 then .ok (.csrrw (fRd w) (fImmI w) (fRs1 w))
  else if fFunct3 w = 0x2#3 then .ok (.csrrs (fRd w) (fImmI w) (fRs1 w))
  else if fFunct3 w = 0x3#3 then .ok (.csrrc (fRd w) (fImmI w) (fRs1 w))
  else if fFunct3 w = 0x5#3 then .ok (.csrrwi (fRd w) (fImmI w) (fRs1 w))
  else if fFunct3 w = 0x6#3 then .ok (.csrrsi (fRd w) (fImmI w) (fRs1 w))
  else if fFunct3 w = 0x7#3 then .ok (.csrrci (fRd w) (fImmI w) (fRs1 w))
  else .error .reservedFunct3

/-- The instruction of a 32-bit word, or why there is none (R196, R201, R207). The opcode 1110011 (0x73) is SYSTEM
(R190 (a)). The operand widths are those of R190 (b): 20 bits for LUI, AUIPC and JAL (there in units of 2 bytes), 12 for
immediates, loads, stores, JALR and branches, 6 for a shift amount, 5 for `uimm`; rd, rs1 and rs2 are fields of their
own (R190 (c)). -/
def decodeWord (w : InstrWord) : Except DecodeError Instr :=
  if fOpcode w = 0x37#7 then .ok (.lui (fRd w) (fImmU w))
  else if fOpcode w = 0x17#7 then .ok (.auipc (fRd w) (fImmU w))
  else if fOpcode w = 0x6F#7 then .ok (.jal (fRd w) (fImmJ w))
  else if fOpcode w = 0x67#7 then
    if fFunct3 w = 0x0#3 then .ok (.jalr (fRd w) (fRs1 w) (fImmI w))
    else .error .reservedFunct3
  else if fOpcode w = 0x63#7 then decodeBranch w
  else if fOpcode w = 0x3#7 then decodeLoad w
  else if fOpcode w = 0x23#7 then decodeStore w
  else if fOpcode w = 0x13#7 then decodeOpImm w
  else if fOpcode w = 0x33#7 then decodeOp w
  else if fOpcode w = 0x1B#7 then decodeOpImm32 w
  else if fOpcode w = 0x3B#7 then decodeOp32 w
  else if fOpcode w = 0xF#7 then decodeMiscMem w
  else if fOpcode w = 0x2F#7 then decodeAmo w
  else if fOpcode w = 0x73#7 then decodeSystem w
  else .error .unknownOpcode

/-- Four bytes in address order as one little-endian word (spec/20_memory.md R122; R192). -/
def wordOfBytes (b0 b1 b2 b3 : Byte) : InstrWord := b3 ++ b2 ++ b1 ++ b0

/-- The decoder on a list of bytes in address order: the first instruction and the rest (R191). -/
def decodeBytes : List Byte → Except DecodeError (Instr × List Byte)
  | b0 :: b1 :: b2 :: b3 :: rest => (decodeWord (wordOfBytes b0 b1 b2 b3)).map (fun i => (i, rest))
  | _ => .error .truncated

/-! ## The encoder (R192, R195) -/

/-- R format. -/
def encR (f7 : BitVec 7) (rs2 rs1 : BitVec 5) (f3 : BitVec 3) (rd : BitVec 5) (op : BitVec 7) : InstrWord :=
  f7 ++ rs2 ++ rs1 ++ f3 ++ rd ++ op
/-- I format. -/
def encI (imm : BitVec 12) (rs1 : BitVec 5) (f3 : BitVec 3) (rd : BitVec 5) (op : BitVec 7) : InstrWord :=
  imm ++ rs1 ++ f3 ++ rd ++ op
/-- S format. -/
def encS (imm : BitVec 12) (rs2 rs1 : BitVec 5) (f3 : BitVec 3) (op : BitVec 7) : InstrWord :=
  imm.extractLsb' 5 7 ++ rs2 ++ rs1 ++ f3 ++ imm.extractLsb' 0 5 ++ op
/-- B format; bit 0 of the offset is not encoded. -/
def encB (off : BitVec 13) (rs2 rs1 : BitVec 5) (f3 : BitVec 3) (op : BitVec 7) : InstrWord :=
  off.extractLsb' 12 1 ++ off.extractLsb' 5 6 ++ rs2 ++ rs1 ++ f3 ++ off.extractLsb' 1 4 ++
    off.extractLsb' 11 1 ++ op
/-- U format. -/
def encU (imm : BitVec 20) (rd : BitVec 5) (op : BitVec 7) : InstrWord := imm ++ rd ++ op
/-- J format; bit 0 of the offset is not encoded. -/
def encJ (off : BitVec 21) (rd : BitVec 5) (op : BitVec 7) : InstrWord :=
  off.extractLsb' 20 1 ++ off.extractLsb' 1 10 ++ off.extractLsb' 11 1 ++ off.extractLsb' 12 8 ++ rd ++ op
/-- Shift-immediate with a 6-bit amount. -/
def encSh6 (f6 shamt : BitVec 6) (rs1 : BitVec 5) (f3 : BitVec 3) (rd : BitVec 5) (op : BitVec 7) : InstrWord :=
  f6 ++ shamt ++ rs1 ++ f3 ++ rd ++ op
/-- AMO. -/
def encA (f5 : BitVec 5) (aq rl : BitVec 1) (rs2 rs1 : BitVec 5) (f3 : BitVec 3) (rd : BitVec 5) : InstrWord :=
  f5 ++ aq ++ rl ++ rs2 ++ rs1 ++ f3 ++ rd ++ 0x2F#7
/-- FENCE. -/
def encF (fm pred succ : BitVec 4) (rs1 rd : BitVec 5) : InstrWord :=
  fm ++ pred ++ succ ++ rs1 ++ 0x0#3 ++ rd ++ 0x0F#7

/-- The word of an instruction (R196 to R200). -/
def encode : Instr → InstrWord
  | .lui rd imm => encU imm rd 0x37#7
  | .auipc rd imm => encU imm rd 0x17#7
  | .addi rd rs1 imm => encI imm rs1 0x0#3 rd 0x13#7
  | .slti rd rs1 imm => encI imm rs1 0x2#3 rd 0x13#7
  | .sltiu rd rs1 imm => encI imm rs1 0x3#3 rd 0x13#7
  | .andi rd rs1 imm => encI imm rs1 0x7#3 rd 0x13#7
  | .ori rd rs1 imm => encI imm rs1 0x6#3 rd 0x13#7
  | .xori rd rs1 imm => encI imm rs1 0x4#3 rd 0x13#7
  | .slli rd rs1 shamt => encSh6 0x0#6 shamt rs1 0x1#3 rd 0x13#7
  | .srli rd rs1 shamt => encSh6 0x0#6 shamt rs1 0x5#3 rd 0x13#7
  | .srai rd rs1 shamt => encSh6 0x10#6 shamt rs1 0x5#3 rd 0x13#7
  | .add rd rs1 rs2 => encR 0x0#7 rs2 rs1 0x0#3 rd 0x33#7
  | .sub rd rs1 rs2 => encR 0x20#7 rs2 rs1 0x0#3 rd 0x33#7
  | .slt rd rs1 rs2 => encR 0x0#7 rs2 rs1 0x2#3 rd 0x33#7
  | .sltu rd rs1 rs2 => encR 0x0#7 rs2 rs1 0x3#3 rd 0x33#7
  | .and rd rs1 rs2 => encR 0x0#7 rs2 rs1 0x7#3 rd 0x33#7
  | .or rd rs1 rs2 => encR 0x0#7 rs2 rs1 0x6#3 rd 0x33#7
  | .xor rd rs1 rs2 => encR 0x0#7 rs2 rs1 0x4#3 rd 0x33#7
  | .sll rd rs1 rs2 => encR 0x0#7 rs2 rs1 0x1#3 rd 0x33#7
  | .srl rd rs1 rs2 => encR 0x0#7 rs2 rs1 0x5#3 rd 0x33#7
  | .sra rd rs1 rs2 => encR 0x20#7 rs2 rs1 0x5#3 rd 0x33#7
  | .jal rd off => encJ off rd 0x6F#7
  | .jalr rd rs1 imm => encI imm rs1 0x0#3 rd 0x67#7
  | .beq rs1 rs2 off => encB off rs2 rs1 0x0#3 0x63#7
  | .bne rs1 rs2 off => encB off rs2 rs1 0x1#3 0x63#7
  | .blt rs1 rs2 off => encB off rs2 rs1 0x4#3 0x63#7
  | .bltu rs1 rs2 off => encB off rs2 rs1 0x6#3 0x63#7
  | .bge rs1 rs2 off => encB off rs2 rs1 0x5#3 0x63#7
  | .bgeu rs1 rs2 off => encB off rs2 rs1 0x7#3 0x63#7
  | .lb rd rs1 imm => encI imm rs1 0x0#3 rd 0x3#7
  | .lbu rd rs1 imm => encI imm rs1 0x4#3 rd 0x3#7
  | .lh rd rs1 imm => encI imm rs1 0x1#3 rd 0x3#7
  | .lhu rd rs1 imm => encI imm rs1 0x5#3 rd 0x3#7
  | .lw rd rs1 imm => encI imm rs1 0x2#3 rd 0x3#7
  | .lwu rd rs1 imm => encI imm rs1 0x6#3 rd 0x3#7
  | .ld rd rs1 imm => encI imm rs1 0x3#3 rd 0x3#7
  | .sb rs1 rs2 imm => encS imm rs2 rs1 0x0#3 0x23#7
  | .sh rs1 rs2 imm => encS imm rs2 rs1 0x1#3 0x23#7
  | .sw rs1 rs2 imm => encS imm rs2 rs1 0x2#3 0x23#7
  | .sd rs1 rs2 imm => encS imm rs2 rs1 0x3#3 0x23#7
  | .addiw rd rs1 imm => encI imm rs1 0x0#3 rd 0x1B#7
  | .slliw rd rs1 shamt => encR 0x0#7 shamt rs1 0x1#3 rd 0x1B#7
  | .srliw rd rs1 shamt => encR 0x0#7 shamt rs1 0x5#3 rd 0x1B#7
  | .sraiw rd rs1 shamt => encR 0x20#7 shamt rs1 0x5#3 rd 0x1B#7
  | .addw rd rs1 rs2 => encR 0x0#7 rs2 rs1 0x0#3 rd 0x3B#7
  | .subw rd rs1 rs2 => encR 0x20#7 rs2 rs1 0x0#3 rd 0x3B#7
  | .sllw rd rs1 rs2 => encR 0x0#7 rs2 rs1 0x1#3 rd 0x3B#7
  | .srlw rd rs1 rs2 => encR 0x0#7 rs2 rs1 0x5#3 rd 0x3B#7
  | .sraw rd rs1 rs2 => encR 0x20#7 rs2 rs1 0x5#3 rd 0x3B#7
  | .fence fm pred succ rd rs1 => encF fm pred succ rs1 rd
  | .fenceI imm rd rs1 => encI imm rs1 0x1#3 rd 0xF#7
  | .amoswapW aq rl rd rs1 rs2 => encA 0x1#5 aq rl rs2 rs1 0x2#3 rd
  | .amoswapD aq rl rd rs1 rs2 => encA 0x1#5 aq rl rs2 rs1 0x3#3 rd
  | .amoaddW aq rl rd rs1 rs2 => encA 0x0#5 aq rl rs2 rs1 0x2#3 rd
  | .amoaddD aq rl rd rs1 rs2 => encA 0x0#5 aq rl rs2 rs1 0x3#3 rd
  | .amoandW aq rl rd rs1 rs2 => encA 0xC#5 aq rl rs2 rs1 0x2#3 rd
  | .amoandD aq rl rd rs1 rs2 => encA 0xC#5 aq rl rs2 rs1 0x3#3 rd
  | .amoorW aq rl rd rs1 rs2 => encA 0x8#5 aq rl rs2 rs1 0x2#3 rd
  | .amoorD aq rl rd rs1 rs2 => encA 0x8#5 aq rl rs2 rs1 0x3#3 rd
  | .amoxorW aq rl rd rs1 rs2 => encA 0x4#5 aq rl rs2 rs1 0x2#3 rd
  | .amoxorD aq rl rd rs1 rs2 => encA 0x4#5 aq rl rs2 rs1 0x3#3 rd
  | .amomaxW aq rl rd rs1 rs2 => encA 0x14#5 aq rl rs2 rs1 0x2#3 rd
  | .amomaxD aq rl rd rs1 rs2 => encA 0x14#5 aq rl rs2 rs1 0x3#3 rd
  | .amominW aq rl rd rs1 rs2 => encA 0x10#5 aq rl rs2 rs1 0x2#3 rd
  | .amominD aq rl rd rs1 rs2 => encA 0x10#5 aq rl rs2 rs1 0x3#3 rd
  | .amomaxuW aq rl rd rs1 rs2 => encA 0x1C#5 aq rl rs2 rs1 0x2#3 rd
  | .amomaxuD aq rl rd rs1 rs2 => encA 0x1C#5 aq rl rs2 rs1 0x3#3 rd
  | .amominuW aq rl rd rs1 rs2 => encA 0x18#5 aq rl rs2 rs1 0x2#3 rd
  | .amominuD aq rl rd rs1 rs2 => encA 0x18#5 aq rl rs2 rs1 0x3#3 rd
  | .lrW aq rl rd rs1 => encA 0x2#5 aq rl 0x00#5 rs1 0x2#3 rd
  | .lrD aq rl rd rs1 => encA 0x2#5 aq rl 0x00#5 rs1 0x3#3 rd
  | .scW aq rl rd rs1 rs2 => encA 0x3#5 aq rl rs2 rs1 0x2#3 rd
  | .scD aq rl rd rs1 rs2 => encA 0x3#5 aq rl rs2 rs1 0x3#3 rd
  | .ecall => 0x00000073#32
  | .ebreak => 0x00100073#32
  | .csrrw rd csr rs1 => encI csr rs1 0x1#3 rd 0x73#7
  | .csrrs rd csr rs1 => encI csr rs1 0x2#3 rd 0x73#7
  | .csrrc rd csr rs1 => encI csr rs1 0x3#3 rd 0x73#7
  | .csrrwi rd csr uimm => encI csr uimm 0x5#3 rd 0x73#7
  | .csrrsi rd csr uimm => encI csr uimm 0x6#3 rd 0x73#7
  | .csrrci rd csr uimm => encI csr uimm 0x7#3 rd 0x73#7
  | .mret => 0x30200073#32
  | .sret => 0x10200073#32
  | .sfenceVma rs1 rs2 => encR 0x09#7 rs2 rs1 0x0#3 0x00#5 0x73#7
  | .wfi => 0x10500073#32

/-- The instruction the decoder reads from an instruction whose first `nbits` bits are `w`, bit 0 the least
significant, every bit above them 0: the four bytes in little-endian order (R192), given to `decodeBytes`. -/
def decodeTableWord (nbits w : Nat) : Option Instr :=
  let v := w % 2 ^ nbits
  let byte (k : Nat) : Byte := BitVec.ofNat 8 (v / 2 ^ (8 * k))
  match decodeBytes [byte 0, byte 1, byte 2, byte 3] with
  | .ok (i, _) => some i
  | .error _ => none

end Sys2Proof
end

