-- ==== Sys2Proof/Machine/Csr.lean ====
section
/-! DEFINITION. The control and status registers: their numbers, the access check (spec/46_system.md R383),
what a read returns and what a write does (R384; spec/10_state.md R30 to R86). -/

namespace Sys2Proof.Machine

/-- The CSR at a number of the table of R30; every other number is none. -/
def csrOf (a : CsrAddr) : Option Csr :=
  if a = 0xC00#12 then some .cycle
  else if a = 0xC01#12 then some .time
  else if a = 0xC02#12 then some .instret
  else if a = 0xC03#12 then some .hpmcounter3
  else if a = 0xC04#12 then some .hpmcounter4
  else if a = 0x100#12 then some .sstatus
  else if a = 0x102#12 then some .sedeleg
  else if a = 0x103#12 then some .sideleg
  else if a = 0x104#12 then some .sie
  else if a = 0x105#12 then some .stvec
  else if a = 0x106#12 then some .scounteren
  else if a = 0x140#12 then some .sscratch
  else if a = 0x141#12 then some .sepc
  else if a = 0x142#12 then some .scause
  else if a = 0x143#12 then some .stval
  else if a = 0x144#12 then some .sip
  else if a = 0x180#12 then some .satp
  else if a = 0xF11#12 then some .mvendorid
  else if a = 0xF12#12 then some .marchid
  else if a = 0xF13#12 then some .mimpid
  else if a = 0xF14#12 then some .mhartid
  else if a = 0x300#12 then some .mstatus
  else if a = 0x301#12 then some .misa
  else if a = 0x302#12 then some .medeleg
  else if a = 0x303#12 then some .mideleg
  else if a = 0x304#12 then some .mie
  else if a = 0x305#12 then some .mtvec
  else if a = 0x306#12 then some .mcounteren
  else if a = 0x340#12 then some .mscratch
  else if a = 0x341#12 then some .mepc
  else if a = 0x342#12 then some .mcause
  else if a = 0x343#12 then some .mtval
  else if a = 0x344#12 then some .mip
  else if a = 0xB00#12 then some .mcycle
  else if a = 0xB02#12 then some .minstret
  else if a = 0xB03#12 then some .mhpmcounter3
  else if a = 0xB04#12 then some .mhpmcounter4
  else if a = 0x320#12 then some .mcountinhibit
  else if a = 0x323#12 then some .mhpmevent3
  else none

/-- The level a CSR's class needs: URO none, SRW S, MRO and MRW M (R31, R383). -/
def csrLevel : Csr → Nat
  | .cycle | .time | .instret | .hpmcounter3 | .hpmcounter4 => 0
  | .sstatus | .sedeleg | .sideleg | .sie | .stvec | .scounteren | .sscratch | .sepc | .scause | .stval
  | .sip | .satp => 1
  | .mvendorid | .marchid | .mimpid | .mhartid | .mstatus | .misa | .medeleg | .mideleg | .mie | .mtvec
  | .mcounteren | .mscratch | .mepc | .mcause | .mtval | .mip | .mcycle | .minstret | .mhpmcounter3
  | .mhpmcounter4 | .mcountinhibit | .mhpmevent3 => 3

/-- Whether a CSR's class is URO or MRO (R31). -/
def csrReadOnly : Csr → Bool
  | .cycle | .time | .instret | .hpmcounter3 | .hpmcounter4 | .mvendorid | .marchid | .mimpid | .mhartid => true
  | .sstatus | .sedeleg | .sideleg | .sie | .stvec | .scounteren | .sscratch | .sepc | .scause | .stval
  | .sip | .satp | .mstatus | .misa | .medeleg | .mideleg | .mie | .mtvec | .mcounteren | .mscratch | .mepc
  | .mcause | .mtval | .mip | .mcycle | .minstret | .mhpmcounter3 | .mhpmcounter4 | .mcountinhibit
  | .mhpmevent3 => false

/-- The access check of the CSR instructions: the CSR, or none where the instruction is illegal (R383). The
counter-enable registers do not enter it (R64, R75). -/
def csrCheck (s : State) (a : CsrAddr) (writes : Bool) : Option Csr :=
  match csrOf a with
  | none => none
  | some c =>
    if s.priv.level < csrLevel c then none
    else if writes && csrReadOnly c then none
    else if decide (c = .satp) && decide (s.priv = .S) && s.mstatus.tvm then none
    else some c

/-! ## Layouts -/

/-- A word with one bit. -/
def bitAt (b : Bool) (n : Nat) : Word := if b then 1#64 <<< n else 0#64

/-- The stored bits of mstatus at their places (R45). -/
def Mstatus.stored (m : Mstatus) : Word :=
  bitAt m.tsr 22 ||| bitAt m.tw 21 ||| bitAt m.tvm 20 ||| bitAt m.mxr 19 ||| bitAt m.sum 18 |||
  bitAt m.mprv 17 ||| (m.mpp.bits.setWidth 64 <<< 11) ||| bitAt m.spp 8 ||| bitAt m.mpie 7 |||
  bitAt m.spie 5 ||| bitAt m.mie 3 ||| bitAt m.sie 1

/-- mstatus as it reads: bits 35:32 are 1111 (R45, R55). -/
def Mstatus.value (m : Mstatus) : Word := m.stored ||| 0x0000000F00000000#64

/-- sstatus as it reads: MXR, SUM, SPP, SPIE, SIE and bits 33:32 (R71). -/
def Mstatus.sstatusValue (m : Mstatus) : Word := (m.stored &&& 0xC0122#64) ||| 0x0000000300000000#64

/-- MPP after a write of its two bits: 10 leaves it as it was (R54). -/
def mppWrite (old : Priv) (v : BitVec 2) : Priv :=
  if v = 0b00#2 then .U else if v = 0b01#2 then .S else if v = 0b11#2 then .M else old

/-- A CSR write of mstatus (R45, R54). -/
def Mstatus.write (m : Mstatus) (v : Word) : Mstatus where
  tsr := v.getLsbD 22
  tw := v.getLsbD 21
  tvm := v.getLsbD 20
  mxr := v.getLsbD 19
  sum := v.getLsbD 18
  mprv := v.getLsbD 17
  mpp := mppWrite m.mpp (v.extractLsb' 11 2)
  spp := v.getLsbD 8
  mpie := v.getLsbD 7
  spie := v.getLsbD 5
  mie := v.getLsbD 3
  sie := v.getLsbD 1

/-- A CSR write of sstatus: five bits of mstatus (R71). -/
def Mstatus.writeSstatus (m : Mstatus) (v : Word) : Mstatus :=
  { m with
    mxr := v.getLsbD 19
    sum := v.getLsbD 18
    spp := v.getLsbD 8
    spie := v.getLsbD 5
    sie := v.getLsbD 1 }

/-- mtvec or stvec as it reads (R56). -/
def Tvec.value (t : Tvec) : Word := t.base ++ (if t.vectored then 0b01#2 else 0b00#2)

/-- A CSR write of mtvec or stvec: MODE 2 and 3 leave MODE as it was (R56, R72). -/
def Tvec.write (t : Tvec) (v : Word) : Tvec where
  base := v.extractLsb' 2 62
  vectored := if v.getLsbD 1 then t.vectored else v.getLsbD 0

/-- satp as it reads (R80). -/
def Satp.value (p : Satp) : Word := (if p.sv39 then 8#4 else 0#4) ++ 0#16 ++ p.ppn

/-- A CSR write of satp: a MODE other than 0 and 8 leaves the whole register as it was (R80). -/
def Satp.write (p : Satp) (v : Word) : Satp :=
  if v.extractLsb' 60 4 = 0#4 then { sv39 := false, ppn := v.extractLsb' 0 44 }
  else if v.extractLsb' 60 4 = 8#4 then { sv39 := true, ppn := v.extractLsb' 0 44 }
  else p

/-- mip as it reads (R59). -/
def mipValue (s : State) : Word :=
  bitAt (pending s .mei) 11 ||| bitAt (pending s .sei) 9 ||| bitAt (pending s .mti) 7 |||
  bitAt (pending s .sti) 5 ||| bitAt (pending s .msi) 3 ||| bitAt (pending s .ssi) 1

/-- The exception codes a software write of mcause or scause can hold (R68, R401). -/
def excCodes : List Nat := [0, 1, 2, 3, 4, 5, 6, 7, 8, 9, 11, 12, 13, 15]

/-- The interrupt codes a software write of mcause (`false`) or scause (`true`) can hold (R68, R78, R402). -/
def irqCodes : Bool → List Nat
  | false => [1, 3, 5, 7, 9, 11]
  | true => [1, 5, 9]

/-- Whether a value is a pair (INT, code) that R401 and R402 give mcause or scause (R68, R78). -/
def legalCause (supervisor : Bool) (v : Word) : Bool :=
  if v.getLsbD 63 then (irqCodes supervisor).contains (v.toNat - 2 ^ 63) else excCodes.contains v.toNat

/-- mcause or scause as it reads: a value that is no legal pair reads as anything (R68, U9; log 15). -/
def causeValue (s : State) (supervisor : Bool) (v : Word) : Word :=
  if legalCause supervisor v then v else Config.causeReadBack s.tick supervisor

/-! ## Read and write -/

/-- `csr_read` (R384): the value the rule of the CSR gives. -/
def csrRead (s : State) : Csr → Word
  | .cycle => s.mcycle
  | .time => s.mtime
  | .instret => s.minstret
  | .hpmcounter3 => 0#64
  | .hpmcounter4 => 0#64
  | .sstatus => s.mstatus.sstatusValue
  | .sedeleg => 0#64
  | .sideleg => 0#64
  | .sie => s.mieValue &&& 0x222#64
  | .stvec => s.stvec.value
  | .scounteren => s.scounteren.setWidth 64
  | .sscratch => s.sscratch
  | .sepc => epcValue s.sepc
  | .scause => causeValue s true s.scause
  | .stval => s.stval
  | .sip => mipValue s &&& 0x222#64
  | .satp => s.satp.value
  | .mvendorid => 0#64
  | .marchid => s.board.marchid
  | .mimpid => s.board.mimpid
  | .mhartid => 1#64
  | .mstatus => s.mstatus.value
  | .misa => 0x8000000000000101#64
  | .medeleg => s.medelegValue
  | .mideleg => s.midelegValue
  | .mie => s.mieValue
  | .mtvec => s.mtvec.value
  | .mcounteren => s.mcounteren.setWidth 64
  | .mscratch => s.mscratch
  | .mepc => epcValue s.mepc
  | .mcause => causeValue s false s.mcause
  | .mtval => s.mtval
  | .mip => mipValue s
  | .mcycle => s.mcycle
  | .minstret => s.minstret
  | .mhpmcounter3 => 0#64
  | .mhpmcounter4 => 0#64
  | .mcountinhibit => s.mcountinhibit &&& 0x1D#64
  | .mhpmevent3 => 0#64

/-- The old value that CSRRS and CSRRC modify: for mip, bit 9 is the software-written bit alone (R59). -/
def csrModified (s : State) : Csr → Word
  | .mip => (mipValue s &&& ~~~0x200#64) ||| bitAt s.seipSw 9
  | c => csrRead s c

/-- The roots a stale translation may start from after a write of satp (R154, R156): a root in use under Sv39
joins them when the write changes satp. -/
def rootsAfter (s : State) (v : Word) : List (BitVec 44) :=
  if s.satp.sv39 && decide (s.satp.write v ≠ s.satp) then s.satp.ppn :: s.rootHistory else s.rootHistory

/-- `csr_write` (R384): the value through the write mask and the special cases of the CSR's rule. A hardwired
CSR ignores it; the read-only ones are never reached (R383). -/
def csrWrite (s : State) (v : Word) : Csr → State
  | .cycle | .time | .instret | .hpmcounter3 | .hpmcounter4 => s
  | .sstatus => { s with mstatus := s.mstatus.writeSstatus v }
  | .sedeleg | .sideleg => s
  | .sie => { s with mie := (s.mie &&& ~~~0x222#64) ||| (v &&& 0x222#64) }
  | .stvec => { s with stvec := s.stvec.write v }
  | .scounteren => { s with scounteren := v.setWidth 5 }
  | .sscratch => { s with sscratch := v }
  | .sepc => { s with sepc := epcValue v }
  | .scause => { s with scause := v }
  | .stval => { s with stval := v }
  | .sip => { s with ssip := v.getLsbD 1 }
  | .satp => { s with satp := s.satp.write v, rootHistory := rootsAfter s v }
  | .mvendorid | .marchid | .mimpid | .mhartid => s
  | .mstatus => { s with mstatus := s.mstatus.write v }
  | .misa => s
  | .medeleg => { s with medeleg := v &&& 0xB3FF#64 }
  | .mideleg => { s with mideleg := v &&& 0x222#64 }
  | .mie => { s with mie := v &&& 0xAAA#64 }
  | .mtvec => { s with mtvec := s.mtvec.write v }
  | .mcounteren => { s with mcounteren := v.setWidth 5 }
  | .mscratch => { s with mscratch := v }
  | .mepc => { s with mepc := epcValue v }
  | .mcause => { s with mcause := v }
  | .mtval => { s with mtval := v }
  | .mip => { s with seipSw := v.getLsbD 9, stip := v.getLsbD 5, ssip := v.getLsbD 1 }
  | .mcycle => { s with mcycle := v }
  | .minstret => { s with minstret := v }
  | .mhpmcounter3 | .mhpmcounter4 => s
  | .mcountinhibit => { s with mcountinhibit := v &&& 0x1D#64 }
  | .mhpmevent3 => s

/-- A CSR instruction completes: it counts in minstret, unless it wrote minstret, whose written value stands
(R62, R384). -/
def retireCsr (s : State) (c : Csr) (writes : Bool) : State :=
  if writes && decide (c = .minstret) then { s with pc := s.nextPc } else s.retire s.nextPc

/-- A CSR instruction (R373 to R378): the check, the read, the write of the value `f` makes of the old one
where it writes, and `x[rd]`. `w` is the instruction word, the trap value where the check fails (R383). -/
def csrInstr (s : State) (w : InstrWord) (rd : Reg) (a : CsrAddr) (writes : Bool) (f : Word → Word) : Result :=
  match csrCheck s a writes with
  | none => .next (s.raiseIllegal w)
  | some c =>
    let s1 := if writes then csrWrite s (f (csrModified s c)) c else s
    .next (retireCsr (s1.setReg rd (csrRead s c)) c writes)

end Sys2Proof.Machine
end

