-- ==== Sys2Proof/Machine/System.lean ====
section
/-! DEFINITION. The SYSTEM instructions (spec/46_system.md). Where one is illegal, the trap value is its own word
(R370). -/

namespace Sys2Proof.Machine

/-- `ECALL` (R371): the environment call of the current mode. -/
def execEcall (s : State) : Result :=
  match s.priv with
  | .U => .next (s.raiseCall .ecallU)
  | .S => .next (s.raiseCall .ecallS)
  | .M => .next (s.raiseCall .ecallM)

/-- `EBREAK` (R372). -/
def execEbreak (s : State) : Result := .next (s.raiseCall .breakpoint)

/-- `CSRRW` (R373). -/
def execCsrrw (rd : Reg) (csr : CsrAddr) (rs1 : Reg) (s : State) : Result :=
  csrInstr s (encode (.csrrw rd csr rs1)) rd csr true (fun _ => s.reg rs1)

/-- `CSRRS` (R374): it writes iff `rs1` is not x0 (R383). -/
def execCsrrs (rd : Reg) (csr : CsrAddr) (rs1 : Reg) (s : State) : Result :=
  csrInstr s (encode (.csrrs rd csr rs1)) rd csr (decide (rs1 ≠ 0#5)) (fun old => old ||| s.reg rs1)

/-- `CSRRC` (R375): it writes iff `rs1` is not x0 (R383). -/
def execCsrrc (rd : Reg) (csr : CsrAddr) (rs1 : Reg) (s : State) : Result :=
  csrInstr s (encode (.csrrc rd csr rs1)) rd csr (decide (rs1 ≠ 0#5)) (fun old => old &&& ~~~s.reg rs1)

/-- `CSRRWI` (R376). -/
def execCsrrwi (rd : Reg) (csr : CsrAddr) (uimm : BitVec 5) (s : State) : Result :=
  csrInstr s (encode (.csrrwi rd csr uimm)) rd csr true (fun _ => immZ uimm)

/-- `CSRRSI` (R377): it writes iff `uimm` is not 0 (R383). -/
def execCsrrsi (rd : Reg) (csr : CsrAddr) (uimm : BitVec 5) (s : State) : Result :=
  csrInstr s (encode (.csrrsi rd csr uimm)) rd csr (decide (uimm ≠ 0#5)) (fun old => old ||| immZ uimm)

/-- `CSRRCI` (R378): it writes iff `uimm` is not 0 (R383). -/
def execCsrrci (rd : Reg) (csr : CsrAddr) (uimm : BitVec 5) (s : State) : Result :=
  csrInstr s (encode (.csrrci rd csr uimm)) rd csr (decide (uimm ≠ 0#5)) (fun old => old &&& ~~~immZ uimm)

/-- `MRET` (R379): illegal outside M mode. -/
def execMret (s : State) : Result :=
  match s.priv with
  | .M => .next (returnM s)
  | .S => .next (s.raiseIllegal (encode .mret))
  | .U => .next (s.raiseIllegal (encode .mret))

/-- `SRET` (R380): legal in S mode unless TSR = 1, and in M mode where the board says so. -/
def execSret (s : State) : Result :=
  match s.priv with
  | .U => .next (s.raiseIllegal (encode .sret))
  | .S => if s.mstatus.tsr then .next (s.raiseIllegal (encode .sret)) else .next (returnS s)
  | .M => if s.board.sretInMLegal then .next (returnS s) else .next (s.raiseIllegal (encode .sret))

/-- The effect of SFENCE.VMA: both TLBs are emptied, so that no older entry and no older root is left to a later
walk (R155, R381). -/
def fenceVma (s : State) : State := { s with pteHistory := [], rootHistory := [] }.retire s.nextPc

/-- `SFENCE.VMA` (R381): illegal in U mode, and in S mode where TVM = 1. -/
def execSfenceVma (rs1 rs2 : Reg) (s : State) : Result :=
  match s.priv with
  | .U => .next (s.raiseIllegal (encode (.sfenceVma rs1 rs2)))
  | .S => if s.mstatus.tvm then .next (s.raiseIllegal (encode (.sfenceVma rs1 rs2))) else .next (fenceVma s)
  | .M => .next (fenceVma s)

/-- `WFI` (R382): illegal below M mode where TW = 1, else a no-operation that retires (log 21). -/
def execWfi (s : State) : Result :=
  if s.mstatus.tw && decide (s.priv ≠ .M) then .next (s.raiseIllegal (encode .wfi))
  else .next (s.retire s.nextPc)

end Sys2Proof.Machine
end

