-- ==== Sys2Proof/Machine/WordOps.lean ====
section
/-! DEFINITION. The RV64I 32-bit operations (spec/43_rv64i_word.md): low 32 bits in, a 32-bit result sign-extended
out (R300). -/

namespace Sys2Proof.Machine

/-- `ADDIW` (R301). -/
def execAddiw (rd rs1 : Reg) (imm : BitVec 12) (s : State) : Result :=
  s.writeAndRetire rd (sext32 (low32 (s.reg rs1 + immI imm)))

/-- `SLLIW` (R302). -/
def execSlliw (rd rs1 : Reg) (shamt : BitVec 5) (s : State) : Result :=
  s.writeAndRetire rd (sext32 (low32 (s.reg rs1) <<< shamt.toNat))

/-- `SRLIW` (R303). -/
def execSrliw (rd rs1 : Reg) (shamt : BitVec 5) (s : State) : Result :=
  s.writeAndRetire rd (sext32 (low32 (s.reg rs1) >>> shamt.toNat))

/-- `SRAIW` (R304). -/
def execSraiw (rd rs1 : Reg) (shamt : BitVec 5) (s : State) : Result :=
  s.writeAndRetire rd (sext32 ((low32 (s.reg rs1)).sshiftRight shamt.toNat))

/-- `ADDW` (R305). -/
def execAddw (rd rs1 rs2 : Reg) (s : State) : Result :=
  s.writeAndRetire rd (sext32 (low32 (s.reg rs1 + s.reg rs2)))

/-- `SUBW` (R306). -/
def execSubw (rd rs1 rs2 : Reg) (s : State) : Result :=
  s.writeAndRetire rd (sext32 (low32 (s.reg rs1 - s.reg rs2)))

/-- `SLLW` (R307). -/
def execSllw (rd rs1 rs2 : Reg) (s : State) : Result :=
  s.writeAndRetire rd (sext32 (low32 (s.reg rs1) <<< shamt5 (s.reg rs2)))

/-- `SRLW` (R308). -/
def execSrlw (rd rs1 rs2 : Reg) (s : State) : Result :=
  s.writeAndRetire rd (sext32 (low32 (s.reg rs1) >>> shamt5 (s.reg rs2)))

/-- `SRAW` (R309). -/
def execSraw (rd rs1 rs2 : Reg) (s : State) : Result :=
  s.writeAndRetire rd (sext32 ((low32 (s.reg rs1)).sshiftRight (shamt5 (s.reg rs2))))

end Sys2Proof.Machine
end

