-- ==== Sys2Proof/Machine/Step.lean ====
section
/-! DEFINITION. One step of the hart (spec/00_scope.md R11): the interrupt check, the fetch, the decode, the
instruction, and the time that passes before the next step. -/

namespace Sys2Proof.Machine

/-- One step. (1) An interrupt to be taken is taken, with the pc of the instruction not yet executed and trap
value 0 (R421, R424, R432, R433). (2) The fetch may raise, with the pc as trap value (R124). (3) A word of no
instruction raises an illegal-instruction exception (R207). (4), (5) The instruction's meaning executes it,
commits and counts it. -/
def step (s : State) : Host.Outcome State Fault Refusal :=
  match interruptTaken s with
  | some i => elapseResult (.next (takeTrap s (.irq i) s.pc 0#64))
  | none =>
    match fetchWord s s.pc with
    | .error e => elapseResult (.next (s.raise e s.pc))
    | .ok (w, s1) =>
      match decodeWord w with
      | .error _ => elapseResult (.next (s1.raiseIllegal w))
      | .ok i => elapseResult (exec i s1)

/-- A state with the instruction of the low `nbits` bits of `w`, every bit above them 0, stored where the next
step fetches (log 7). -/
def State.withFetchWord (s : State) (nbits w : Nat) : State := placeWord s (BitVec.ofNat 32 (w % 2 ^ nbits))

end Sys2Proof.Machine
end

