-- ==== Sys2Proof/Safety.lean ====
section
/-! DEFINITION. The terms in which statements speak of the machine: the opcode table, what an instruction
leaves alone (its frame), what it does to a register and to memory, the interrupt conditions as a program can
read them, and the invariant of every run. Nothing here is used by the machine itself. -/

namespace Sys2Proof

/-! ## spec/opcode_table.json (R201) -/

/-- `mask` of the instruction's row. -/
def Instr.rowMask : Instr → InstrWord
  | .lui _ _ => 0x0000007f#32
  | .auipc _ _ => 0x0000007f#32
  | .addi _ _ _ => 0x0000707f#32
  | .slti _ _ _ => 0x0000707f#32
  | .sltiu _ _ _ => 0x0000707f#32
  | .andi _ _ _ => 0x0000707f#32
  | .ori _ _ _ => 0x0000707f#32
  | .xori _ _ _ => 0x0000707f#32
  | .slli _ _ _ => 0xfc00707f#32
  | .srli _ _ _ => 0xfc00707f#32
  | .srai _ _ _ => 0xfc00707f#32
  | .add _ _ _ => 0xfe00707f#32
  | .sub _ _ _ => 0xfe00707f#32
  | .slt _ _ _ => 0xfe00707f#32
  | .sltu _ _ _ => 0xfe00707f#32
  | .and _ _ _ => 0xfe00707f#32
  | .or _ _ _ => 0xfe00707f#32
  | .xor _ _ _ => 0xfe00707f#32
  | .sll _ _ _ => 0xfe00707f#32
  | .srl _ _ _ => 0xfe00707f#32
  | .sra _ _ _ => 0xfe00707f#32
  | .jal _ _ => 0x0000007f#32
  | .jalr _ _ _ => 0x0000707f#32
  | .beq _ _ _ => 0x0000707f#32
  | .bne _ _ _ => 0x0000707f#32
  | .blt _ _ _ => 0x0000707f#32
  | .bltu _ _ _ => 0x0000707f#32
  | .bge _ _ _ => 0x0000707f#32
  | .bgeu _ _ _ => 0x0000707f#32
  | .lb _ _ _ => 0x0000707f#32
  | .lbu _ _ _ => 0x0000707f#32
  | .lh _ _ _ => 0x0000707f#32
  | .lhu _ _ _ => 0x0000707f#32
  | .lw _ _ _ => 0x0000707f#32
  | .lwu _ _ _ => 0x0000707f#32
  | .ld _ _ _ => 0x0000707f#32
  | .sb _ _ _ => 0x0000707f#32
  | .sh _ _ _ => 0x0000707f#32
  | .sw _ _ _ => 0x0000707f#32
  | .sd _ _ _ => 0x0000707f#32
  | .addiw _ _ _ => 0x0000707f#32
  | .slliw _ _ _ => 0xfe00707f#32
  | .srliw _ _ _ => 0xfe00707f#32
  | .sraiw _ _ _ => 0xfe00707f#32
  | .addw _ _ _ => 0xfe00707f#32
  | .subw _ _ _ => 0xfe00707f#32
  | .sllw _ _ _ => 0xfe00707f#32
  | .srlw _ _ _ => 0xfe00707f#32
  | .sraw _ _ _ => 0xfe00707f#32
  | .fence _ _ _ _ _ => 0x0000707f#32
  | .fenceI _ _ _ => 0x0000707f#32
  | .amoswapW _ _ _ _ _ => 0xf800707f#32
  | .amoswapD _ _ _ _ _ => 0xf800707f#32
  | .amoaddW _ _ _ _ _ => 0xf800707f#32
  | .amoaddD _ _ _ _ _ => 0xf800707f#32
  | .amoandW _ _ _ _ _ => 0xf800707f#32
  | .amoandD _ _ _ _ _ => 0xf800707f#32
  | .amoorW _ _ _ _ _ => 0xf800707f#32
  | .amoorD _ _ _ _ _ => 0xf800707f#32
  | .amoxorW _ _ _ _ _ => 0xf800707f#32
  | .amoxorD _ _ _ _ _ => 0xf800707f#32
  | .amomaxW _ _ _ _ _ => 0xf800707f#32
  | .amomaxD _ _ _ _ _ => 0xf800707f#32
  | .amominW _ _ _ _ _ => 0xf800707f#32
  | .amominD _ _ _ _ _ => 0xf800707f#32
  | .amomaxuW _ _ _ _ _ => 0xf800707f#32
  | .amomaxuD _ _ _ _ _ => 0xf800707f#32
  | .amominuW _ _ _ _ _ => 0xf800707f#32
  | .amominuD _ _ _ _ _ => 0xf800707f#32
  | .lrW _ _ _ _ => 0xf9f0707f#32
  | .lrD _ _ _ _ => 0xf9f0707f#32
  | .scW _ _ _ _ _ => 0xf800707f#32
  | .scD _ _ _ _ _ => 0xf800707f#32
  | .ecall => 0xffffffff#32
  | .ebreak => 0xffffffff#32
  | .csrrw _ _ _ => 0x0000707f#32
  | .csrrs _ _ _ => 0x0000707f#32
  | .csrrc _ _ _ => 0x0000707f#32
  | .csrrwi _ _ _ => 0x0000707f#32
  | .csrrsi _ _ _ => 0x0000707f#32
  | .csrrci _ _ _ => 0x0000707f#32
  | .mret => 0xffffffff#32
  | .sret => 0xffffffff#32
  | .sfenceVma _ _ => 0xfe007fff#32
  | .wfi => 0xffffffff#32

/-- `match` of the instruction's row. -/
def Instr.rowMatch : Instr → InstrWord
  | .lui _ _ => 0x00000037#32
  | .auipc _ _ => 0x00000017#32
  | .addi _ _ _ => 0x00000013#32
  | .slti _ _ _ => 0x00002013#32
  | .sltiu _ _ _ => 0x00003013#32
  | .andi _ _ _ => 0x00007013#32
  | .ori _ _ _ => 0x00006013#32
  | .xori _ _ _ => 0x00004013#32
  | .slli _ _ _ => 0x00001013#32
  | .srli _ _ _ => 0x00005013#32
  | .srai _ _ _ => 0x40005013#32
  | .add _ _ _ => 0x00000033#32
  | .sub _ _ _ => 0x40000033#32
  | .slt _ _ _ => 0x00002033#32
  | .sltu _ _ _ => 0x00003033#32
  | .and _ _ _ => 0x00007033#32
  | .or _ _ _ => 0x00006033#32
  | .xor _ _ _ => 0x00004033#32
  | .sll _ _ _ => 0x00001033#32
  | .srl _ _ _ => 0x00005033#32
  | .sra _ _ _ => 0x40005033#32
  | .jal _ _ => 0x0000006f#32
  | .jalr _ _ _ => 0x00000067#32
  | .beq _ _ _ => 0x00000063#32
  | .bne _ _ _ => 0x00001063#32
  | .blt _ _ _ => 0x00004063#32
  | .bltu _ _ _ => 0x00006063#32
  | .bge _ _ _ => 0x00005063#32
  | .bgeu _ _ _ => 0x00007063#32
  | .lb _ _ _ => 0x00000003#32
  | .lbu _ _ _ => 0x00004003#32
  | .lh _ _ _ => 0x00001003#32
  | .lhu _ _ _ => 0x00005003#32
  | .lw _ _ _ => 0x00002003#32
  | .lwu _ _ _ => 0x00006003#32
  | .ld _ _ _ => 0x00003003#32
  | .sb _ _ _ => 0x00000023#32
  | .sh _ _ _ => 0x00001023#32
  | .sw _ _ _ => 0x00002023#32
  | .sd _ _ _ => 0x00003023#32
  | .addiw _ _ _ => 0x0000001b#32
  | .slliw _ _ _ => 0x0000101b#32
  | .srliw _ _ _ => 0x0000501b#32
  | .sraiw _ _ _ => 0x4000501b#32
  | .addw _ _ _ => 0x0000003b#32
  | .subw _ _ _ => 0x4000003b#32
  | .sllw _ _ _ => 0x0000103b#32
  | .srlw _ _ _ => 0x0000503b#32
  | .sraw _ _ _ => 0x4000503b#32
  | .fence _ _ _ _ _ => 0x0000000f#32
  | .fenceI _ _ _ => 0x0000100f#32
  | .amoswapW _ _ _ _ _ => 0x0800202f#32
  | .amoswapD _ _ _ _ _ => 0x0800302f#32
  | .amoaddW _ _ _ _ _ => 0x0000202f#32
  | .amoaddD _ _ _ _ _ => 0x0000302f#32
  | .amoandW _ _ _ _ _ => 0x6000202f#32
  | .amoandD _ _ _ _ _ => 0x6000302f#32
  | .amoorW _ _ _ _ _ => 0x4000202f#32
  | .amoorD _ _ _ _ _ => 0x4000302f#32
  | .amoxorW _ _ _ _ _ => 0x2000202f#32
  | .amoxorD _ _ _ _ _ => 0x2000302f#32
  | .amomaxW _ _ _ _ _ => 0xa000202f#32
  | .amomaxD _ _ _ _ _ => 0xa000302f#32
  | .amominW _ _ _ _ _ => 0x8000202f#32
  | .amominD _ _ _ _ _ => 0x8000302f#32
  | .amomaxuW _ _ _ _ _ => 0xe000202f#32
  | .amomaxuD _ _ _ _ _ => 0xe000302f#32
  | .amominuW _ _ _ _ _ => 0xc000202f#32
  | .amominuD _ _ _ _ _ => 0xc000302f#32
  | .lrW _ _ _ _ => 0x1000202f#32
  | .lrD _ _ _ _ => 0x1000302f#32
  | .scW _ _ _ _ _ => 0x1800202f#32
  | .scD _ _ _ _ _ => 0x1800302f#32
  | .ecall => 0x00000073#32
  | .ebreak => 0x00100073#32
  | .csrrw _ _ _ => 0x00001073#32
  | .csrrs _ _ _ => 0x00002073#32
  | .csrrc _ _ _ => 0x00003073#32
  | .csrrwi _ _ _ => 0x00005073#32
  | .csrrsi _ _ _ => 0x00006073#32
  | .csrrci _ _ _ => 0x00007073#32
  | .mret => 0x30200073#32
  | .sret => 0x10200073#32
  | .sfenceVma _ _ => 0x12000073#32
  | .wfi => 0x10500073#32

/-- Whether a word is the instruction of `i`'s row: `w & mask = match` (R201). -/
def Instr.rowMatches (i : Instr) (w : InstrWord) : Prop := w &&& i.rowMask = i.rowMatch

/-- Whether two instructions are of one row. -/
def Instr.sameRow (i j : Instr) : Prop := i.rowMask = j.rowMask ∧ i.rowMatch = j.rowMatch

end Sys2Proof

namespace Sys2Proof.Machine

/-! ## Registers -/

/-- Every register as before. -/
def SameRegs (s t : State) : Prop := ∀ q : Reg, t.reg q = s.reg q

/-- `x[rd]` is `v`, or 0 where `rd` is x0 (R21), and every other register is as before. -/
def RegIs (s t : State) (rd : Reg) (v : Word) : Prop :=
  t.reg rd = (if rd = 0#5 then 0#64 else v) ∧ ∀ q : Reg, q ≠ rd → t.reg q = s.reg q

/-! ## Frames -/

/-- The privilege mode and mstatus as before. -/
def SameMode (s t : State) : Prop := t.priv = s.priv ∧ t.mstatus = s.mstatus

/-- The trap registers as before. -/
def SameTrapRegs (s t : State) : Prop :=
  t.mepc = s.mepc ∧ t.mcause = s.mcause ∧ t.mtval = s.mtval ∧
  t.sepc = s.sepc ∧ t.scause = s.scause ∧ t.stval = s.stval

/-- Every other CSR as before, but minstret. -/
def SameControl (s t : State) : Prop :=
  t.mtvec = s.mtvec ∧ t.stvec = s.stvec ∧ t.medeleg = s.medeleg ∧ t.mideleg = s.mideleg ∧ t.mie = s.mie ∧
  t.ssip = s.ssip ∧ t.stip = s.stip ∧ t.seipSw = s.seipSw ∧ t.mscratch = s.mscratch ∧
  t.mcounteren = s.mcounteren ∧ t.scounteren = s.scounteren ∧ t.mcountinhibit = s.mcountinhibit ∧
  t.mcycle = s.mcycle ∧ t.sscratch = s.sscratch ∧ t.satp = s.satp

/-- The mode and every CSR but minstret as before. -/
def SameSystem (s t : State) : Prop := SameMode s t ∧ SameTrapRegs s t ∧ SameControl s t

/-- The platform's registers and lines, the step counter and the board as before. -/
def SamePlatform (s t : State) : Prop :=
  t.mtime = s.mtime ∧ t.mtimecmp = s.mtimecmp ∧ t.msip = s.msip ∧ t.extMei = s.extMei ∧ t.extSei = s.extSei ∧
  t.plicProgrammed = s.plicProgrammed ∧ t.tick = s.tick ∧ t.board = s.board

/-- The lines, the step counter and the board as before: what no store changes. -/
def SameLines (s t : State) : Prop :=
  t.extMei = s.extMei ∧ t.extSei = s.extSei ∧ t.tick = s.tick ∧ t.board = s.board

/-- Caches and TLBs as before. -/
def SameHidden (s t : State) : Prop :=
  t.codeHistory = s.codeHistory ∧ t.pteHistory = s.pteHistory ∧ t.rootHistory = s.rootHistory

/-- Every byte of memory reads as before. -/
def SameMemory (s t : State) : Prop := ∀ a : Nat, t.mem.byteAt a = s.mem.byteAt a

/-- minstret has counted one instruction, unless mcountinhibit.IR stops it (R62, R65). -/
def Counted (s t : State) : Prop :=
  t.minstret = if s.mcountinhibit.getLsbD 2 then s.minstret else s.minstret + 1#64

/-! ## Completions -/

/-- The instruction completes at `target` and does nothing but write `v` to `x[rd]`. -/
def WritesAndGoes (s : State) (r : Result) (rd : Reg) (v target : Word) : Prop :=
  ∃ t, r = .next t ∧ RegIs s t rd v ∧ t.pc = target ∧ Counted s t ∧ SameSystem s t ∧ SamePlatform s t ∧
    SameHidden s t ∧ SameMemory s t

/-- The instruction completes, writes `v` to `x[rd]` and goes to the next in line. -/
def Writes (s : State) (r : Result) (rd : Reg) (v : Word) : Prop := WritesAndGoes s r rd v (s.pc + 4#64)

/-- The instruction completes at `target` and changes nothing else. -/
def Goes (s : State) (r : Result) (target : Word) : Prop :=
  ∃ t, r = .next t ∧ SameRegs s t ∧ t.pc = target ∧ Counted s t ∧ SameSystem s t ∧ SamePlatform s t ∧
    SameHidden s t ∧ SameMemory s t

/-- The instruction answers the trap of exception `e` with the given saved pc and trap value (R430). -/
def Traps (s : State) (r : Result) (e : Exc) (epc tval : Word) : Prop := r = .next (takeTrap s (.exc e) epc tval)

/-! ## Memory -/

/-- Whether an address is one of `n` from `base`. -/
def InRange (a base n : Nat) : Prop := base ≤ a ∧ a < base + n

/-- The `n` bytes from `a` hold the low `n` bytes of `v`, little-endian (R122). -/
def HoldsBytes (m : Memory) (a n : Nat) (v : Word) : Prop :=
  ∀ k, k < n → m.byteAt (a + k) = v.extractLsb' (8 * k) 8

/-- Whether an address is a byte of the page-table entry whose A or D bit a translation sets (R149). -/
def InUpdate (tr : Translation) (a : Nat) : Prop := ∃ u, tr.update = some u ∧ InRange a u.1.toNat 8

/-- A data access of `n` bytes at `va` passes every check: aligned, translated to `tr`, accessible (R125). -/
def DataOk (s : State) (va : Word) (t : Access) (n : Nat) (tr : Translation) : Prop :=
  va.toNat % n = 0 ∧ translateVa s va t s.dataPriv = .ok tr ∧ physAccessible s.board tr.pa n t = true

/-- A load of `n` bytes completes: `x[rd]` is `ext` of the value read at the physical address, which is that of the
bytes in memory where memory answers; nothing else changes but the page-table entry's A bit. -/
def Loads (s : State) (r : Result) (rd : Reg) (tr : Translation) (n : Nat) (ext : Word → Word) : Prop :=
  ∃ t v, r = .next t ∧ v = physRead (applyUpdate s tr.update) tr.pa n (.data .load) ∧
    RegIs s t rd (ext v) ∧ t.pc = s.pc + 4#64 ∧ Counted s t ∧ SameSystem s t ∧
    SamePlatform (applyUpdate s tr.update) t ∧ SameHidden (applyUpdate s tr.update) t ∧
    SameMemory (applyUpdate s tr.update) t ∧
    (∀ a, ¬InUpdate tr a → t.mem.byteAt a = s.mem.byteAt a) ∧
    (responder s.board tr.pa.toNat n = .ram → HoldsBytes t.mem tr.pa.toNat n v)

/-- The page-table entry a translation sets A or D in, where it lies in memory, holds its new value in every byte
that the store of `n` bytes after it does not overwrite (R149). -/
def EntryWritten (s t : State) (tr : Translation) (n : Nat) : Prop :=
  ∀ u k, tr.update = some u → responder s.board u.1.toNat 8 = .ram → k < 8 →
    (responder s.board tr.pa.toNat n = .ram → ¬InRange (u.1.toNat + k) tr.pa.toNat n) →
    t.mem.byteAt (u.1.toNat + k) = u.2.extractLsb' (8 * k) 8

/-- Memory, platform and histories after a store of the low `n` bytes of `v` through a translation: they are those
of the write of the page-table entry, where one is due, and then the write at the physical address. Where memory
answers, the bytes stored to are those at the physical address, and every other byte but the page-table entry's
reads as before; a store that a device answers leaves memory alone (log 26 where such a store has bytes beside the
device's). -/
def Stored (s t : State) (tr : Translation) (n : Nat) (v : Word) : Prop :=
  SamePlatform (physWrite (applyUpdate s tr.update) tr.pa n v) t ∧
  SameHidden (physWrite (applyUpdate s tr.update) tr.pa n v) t ∧
  SameMemory (physWrite (applyUpdate s tr.update) tr.pa n v) t ∧ EntryWritten s t tr n ∧
  SameLines s t ∧ t.rootHistory = s.rootHistory ∧
  (responder s.board tr.pa.toNat n = .ram →
    HoldsBytes t.mem tr.pa.toNat n v ∧ SamePlatform (applyUpdate s tr.update) t ∧
    ∀ a, ¬InRange a tr.pa.toNat n → ¬InUpdate tr a → t.mem.byteAt a = s.mem.byteAt a) ∧
  (responder s.board tr.pa.toNat n ≠ .ram → ∀ a, ¬InUpdate tr a → t.mem.byteAt a = s.mem.byteAt a)

/-- A store completes and changes nothing else. -/
def Stores (s : State) (r : Result) (tr : Translation) (n : Nat) (v : Word) : Prop :=
  ∃ t, r = .next t ∧ SameRegs s t ∧ t.pc = s.pc + 4#64 ∧ Counted s t ∧ SameSystem s t ∧ Stored s t tr n v

/-- An SC completes: the store is made and `x[rd]` is 0 (R354). -/
def StoresAndClears (s : State) (r : Result) (rd : Reg) (tr : Translation) (n : Nat) (v : Word) : Prop :=
  ∃ t, r = .next t ∧ RegIs s t rd 0#64 ∧ t.pc = s.pc + 4#64 ∧ Counted s t ∧ SameSystem s t ∧ Stored s t tr n v

/-- A store that a device answers completes: the platform's registers are as given, and no general register, no
byte of memory, no CSR's storage and no history changes. -/
def StoresToDevice (s : State) (r : Result) (mtime mtimecmp : Word) (msip : Bool) : Prop :=
  ∃ t, r = .next t ∧ t.mtime = mtime ∧ t.mtimecmp = mtimecmp ∧ t.msip = msip ∧ SameRegs s t ∧
    t.pc = s.pc + 4#64 ∧ Counted s t ∧ SameSystem s t ∧ SameLines s t ∧
    t.plicProgrammed = s.plicProgrammed ∧ SameHidden s t ∧ SameMemory s t

/-- An AMO completes: `x[rd]` is `ext` of the old value, `f` of the old value is stored, and the old value is the
one read at the physical address, that of the bytes in memory where memory answers (R129, R330). -/
def Updates (s : State) (r : Result) (rd : Reg) (tr : Translation) (n : Nat) (ext f : Word → Word) : Prop :=
  ∃ t old, r = .next t ∧ old = physRead (applyUpdate s tr.update) tr.pa n (.data .store) ∧
    RegIs s t rd (ext old) ∧ t.pc = s.pc + 4#64 ∧ Counted s t ∧ SameSystem s t ∧
    Stored s t tr n (f old) ∧
    (responder s.board tr.pa.toNat n = .ram → HoldsBytes (applyUpdate s tr.update).mem tr.pa.toNat n old)

/-- `sext_32` of a value read (R285, R330). -/
def sextWord (v : Word) : Word := (v.setWidth 32).signExtend 64

/-- A 32-bit function of the low words of the memory value and of the register (R330). -/
def lowWords (f : BitVec 32 → BitVec 32 → BitVec 32) (src old : Word) : Word :=
  (f (old.setWidth 32) (src.setWidth 32)).setWidth 64

/-- The data access of an instruction: its kind, its address and its bytes (R123, R280, R330, R349, R351). -/
def dataAccess (s : State) : Instr → Option (Access × Word × Nat)
  | .lb _ rs1 imm | .lbu _ rs1 imm => some (.load, s.reg rs1 + imm.signExtend 64, 1)
  | .lh _ rs1 imm | .lhu _ rs1 imm => some (.load, s.reg rs1 + imm.signExtend 64, 2)
  | .lw _ rs1 imm | .lwu _ rs1 imm => some (.load, s.reg rs1 + imm.signExtend 64, 4)
  | .ld _ rs1 imm => some (.load, s.reg rs1 + imm.signExtend 64, 8)
  | .sb rs1 _ imm => some (.store, s.reg rs1 + imm.signExtend 64, 1)
  | .sh rs1 _ imm => some (.store, s.reg rs1 + imm.signExtend 64, 2)
  | .sw rs1 _ imm => some (.store, s.reg rs1 + imm.signExtend 64, 4)
  | .sd rs1 _ imm => some (.store, s.reg rs1 + imm.signExtend 64, 8)
  | .lrW _ _ _ rs1 => some (.load, s.reg rs1, 4)
  | .lrD _ _ _ rs1 => some (.load, s.reg rs1, 8)
  | .scW _ _ _ rs1 _ | .amoswapW _ _ _ rs1 _ | .amoaddW _ _ _ rs1 _ | .amoandW _ _ _ rs1 _
  | .amoorW _ _ _ rs1 _ | .amoxorW _ _ _ rs1 _ | .amomaxW _ _ _ rs1 _ | .amominW _ _ _ rs1 _
  | .amomaxuW _ _ _ rs1 _ | .amominuW _ _ _ rs1 _ => some (.store, s.reg rs1, 4)
  | .scD _ _ _ rs1 _ | .amoswapD _ _ _ rs1 _ | .amoaddD _ _ _ rs1 _ | .amoandD _ _ _ rs1 _
  | .amoorD _ _ _ rs1 _ | .amoxorD _ _ _ rs1 _ | .amomaxD _ _ _ rs1 _ | .amominD _ _ _ rs1 _
  | .amomaxuD _ _ _ rs1 _ | .amominuD _ _ _ rs1 _ => some (.store, s.reg rs1, 8)
  | _ => none

/-! ## Histories: what stale fetches and stale translations may draw from (R154, R162) -/

/-- Every entry of `new` is one of `old`, or the value of an aligned doubleword in the memory of `s`. -/
def HeldBefore (s : State) (old new : List (Nat × Word)) : Prop :=
  ∀ h ∈ new, h ∈ old ∨ (h.1 % 8 = 0 ∧ h.2 = s.mem.load h.1 8)

/-- Every entry of `new` is one of `old`, or the value of an aligned doubleword in the memory of `s`, or the value
of one after the data access of `i` has set A or D in its page-table entry: a value memory held. -/
def HeldDuring (s : State) (i : Instr) (old new : List (Nat × Word)) : Prop :=
  ∀ h ∈ new, h ∈ old ∨ (h.1 % 8 = 0 ∧ (h.2 = s.mem.load h.1 8 ∨
    ∃ t va n tr, dataAccess s i = some (t, va, n) ∧ translateVa s va t s.dataPriv = .ok tr ∧
      h.2 = (applyUpdate s tr.update).mem.load h.1 8))

/-! ## Interrupts, as a program can read them (R421, R422) -/

/-- `takeM(i)`. -/
def TakenInM (s : State) (i : Irq) : Prop :=
  (csrRead s .mip).getLsbD i.code = true ∧ (csrRead s .mie).getLsbD i.code = true ∧
  (csrRead s .mideleg).getLsbD i.code = false ∧ (s.priv ≠ .M ∨ (csrRead s .mstatus).getLsbD 3 = true)

/-- `takeS(i)`. -/
def TakenInS (s : State) (i : Irq) : Prop :=
  (csrRead s .mip).getLsbD i.code = true ∧ (csrRead s .mie).getLsbD i.code = true ∧
  (csrRead s .mideleg).getLsbD i.code = true ∧
  (s.priv = .U ∨ (s.priv = .S ∧ (csrRead s .mstatus).getLsbD 1 = true))

/-- The place of an interrupt in the order of R422. -/
def irqRank : Irq → Nat
  | .mei => 0
  | .msi => 1
  | .mti => 2
  | .sei => 3
  | .ssi => 4
  | .sti => 5

/-! ## CSRs -/

/-- The table of R30, row by row: every CSR that exists, at its number. -/
def csrTable : List (CsrAddr × Csr) :=
  [(0xC00#12, .cycle), (0xC01#12, .time), (0xC02#12, .instret), (0xC03#12, .hpmcounter3), (0xC04#12, .hpmcounter4),
   (0x100#12, .sstatus), (0x102#12, .sedeleg), (0x103#12, .sideleg), (0x104#12, .sie), (0x105#12, .stvec),
   (0x106#12, .scounteren), (0x140#12, .sscratch), (0x141#12, .sepc), (0x142#12, .scause), (0x143#12, .stval),
   (0x144#12, .sip), (0x180#12, .satp), (0xF11#12, .mvendorid), (0xF12#12, .marchid), (0xF13#12, .mimpid),
   (0xF14#12, .mhartid), (0x300#12, .mstatus), (0x301#12, .misa), (0x302#12, .medeleg), (0x303#12, .mideleg),
   (0x304#12, .mie), (0x305#12, .mtvec), (0x306#12, .mcounteren), (0x340#12, .mscratch), (0x341#12, .mepc),
   (0x342#12, .mcause), (0x343#12, .mtval), (0x344#12, .mip), (0xB00#12, .mcycle), (0xB02#12, .minstret),
   (0xB03#12, .mhpmcounter3), (0xB04#12, .mhpmcounter4), (0x320#12, .mcountinhibit), (0x323#12, .mhpmevent3)]

/-- Whether two CSR numbers show the same storage, wholly or in part (R32, R71, R73, R74, R82 to R84). -/
def Linked (c d : Csr) : Prop :=
  c = d ∨ (c = .mstatus ∧ d = .sstatus) ∨ (c = .sstatus ∧ d = .mstatus) ∨ (c = .mie ∧ d = .sie) ∨
  (c = .sie ∧ d = .mie) ∨ (c = .mip ∧ d = .sip) ∨ (c = .sip ∧ d = .mip) ∨ (c = .mcycle ∧ d = .cycle) ∨
  (c = .minstret ∧ d = .instret)

/-- The old value that a set or clear starts from: what the CSR reads as, but for mip, where bit 9 is the
software-written bit alone (R59, R374). -/
def readModifyValue (s : State) (c : Csr) : Word :=
  if c = .mip then (csrRead s .mip &&& ~~~0x200#64) ||| (if s.seipSw then 0x200#64 else 0#64) else csrRead s c

/-- A CSR instruction on `c` completes: `x[rd]` is the old value; where it writes, the CSRs read as after
`csr_write(c, new)`, else as before; minstret counts, unless it is what was written (R62, R384); memory, the
platform, the mode and the caches are as before. -/
def CsrDone (s : State) (r : Result) (rd : Reg) (c : Csr) (writes : Prop) (new : Word) : Prop :=
  ∃ t u, r = .next t ∧ (writes → u = csrWrite s new c) ∧ (¬writes → u = s) ∧
    RegIs s t rd (csrRead s c) ∧ t.pc = s.pc + 4#64 ∧ t.priv = s.priv ∧
    (∀ d, d ≠ .minstret → d ≠ .instret → csrRead t d = csrRead u d) ∧
    SameSystem u t ∧ t.rootHistory = u.rootHistory ∧
    ((writes ∧ c = .minstret) → t.minstret = new) ∧ (¬(writes ∧ c = .minstret) → Counted u t) ∧
    SamePlatform s t ∧ SameMemory s t ∧ t.codeHistory = s.codeHistory ∧ t.pteHistory = s.pteHistory

/-- The delegation bit of a cause (R57, R58, R414, R415). -/
def delegationBit (s : State) : Cause → Bool
  | .exc e => (csrRead s .medeleg).getLsbD e.code
  | .irq i => (csrRead s .mideleg).getLsbD i.code

/-- The code of a cause in its low bits, and whether it is an interrupt. -/
def Cause.isInterrupt : Cause → Bool
  | .exc _ => false
  | .irq _ => true

/-! ## Sv39 (R141 to R150) -/

/-- No stale translation is possible: as after an SFENCE.VMA (R155). -/
def TlbClean (s : State) : Prop := s.pteHistory = [] ∧ s.rootHistory = []

/-- The entry for `va` in the level-`i` table at `a` can be read, lies in memory, and is `pte`. -/
def EntryIs (s : State) (a va : Word) (i : Nat) (pte : Word) : Prop :=
  physAccessible s.board (pteAddress a va i) 8 .load = true ∧
  responder s.board (pteAddress a va i).toNat 8 = .ram ∧ HoldsBytes s.mem (pteAddress a va i).toNat 8 pte

/-- A pointer to the next level: V, and X = W = R = 0 (R146); reserved bits 0. -/
def IsPointer (pte : Word) : Prop :=
  pte.getLsbD 0 = true ∧ pte.getLsbD 1 = false ∧ pte.getLsbD 2 = false ∧ pte.getLsbD 3 = false ∧
  pte.extractLsb' 54 10 = 0#10

/-- A leaf: V, R or X, and not W without R (R146); reserved bits 0. -/
def IsLeaf (pte : Word) : Prop :=
  pte.getLsbD 0 = true ∧ (pte.getLsbD 1 = true ∨ pte.getLsbD 3 = true) ∧
  (pte.getLsbD 2 = true → pte.getLsbD 1 = true) ∧ pte.extractLsb' 54 10 = 0#10

/-- The A and D bits an access sets in the leaf entry (R149). -/
def setsBits : Access → Word
  | .fetch => 0x40#64
  | .load => 0x40#64
  | .store => 0xC0#64

/-- A leaf entry at `ea` that the access may use: its permission table entry holds (R148), and it can be written
where A or D must be set. -/
def LeafOk (s : State) (ea pte : Word) (t : Access) (p : Priv) : Prop :=
  IsLeaf pte ∧ permitted s.mstatus pte t p = true ∧
  (pte &&& setsBits t ≠ setsBits t → physAccessible s.board ea 8 .store = true)

/-- A leaf at level `i` maps an aligned page: the low page-number bits of a superpage are 0 (R147 step 6). -/
def SuperpageAligned (pte : Word) (i : Nat) : Prop :=
  (i = 1 → pte.extractLsb' 10 9 = 0#9) ∧ (i = 2 → pte.extractLsb' 10 18 = 0#18)

/-- An entry at level `i` at which the walk page-faults (R147 steps 3 to 6): V = 0; W without R; a leaf that the
access is not permitted, or of a misaligned superpage; a pointer at level 0. -/
def BadEntry (s : State) (pte : Word) (t : Access) (p : Priv) (i : Nat) : Prop :=
  pte.getLsbD 0 = false ∨ (pte.getLsbD 1 = false ∧ pte.getLsbD 2 = true) ∨
  (IsLeaf pte ∧ (permitted s.mstatus pte t p = false ∨ ¬SuperpageAligned pte i)) ∨ (i = 0 ∧ IsPointer pte)

/-- An entry at `ea` that raises an access fault (R153; log 19): a leaf the access may use, in which A or D must be
set, where no store is answered. -/
def LockedEntry (s : State) (ea pte : Word) (t : Access) (p : Priv) (i : Nat) : Prop :=
  IsLeaf pte ∧ permitted s.mstatus pte t p = true ∧ SuperpageAligned pte i ∧
  pte &&& setsBits t ≠ setsBits t ∧ physAccessible s.board ea 8 .store = false

/-- What the walk does with the level-`i` table at `a`, where it goes no further: the entry cannot be read, or it is
bad, or it must be written and cannot be. -/
def WalkEndsAt (s : State) (va : Word) (t : Access) (p : Priv) (i : Nat) (a : Word) : Prop :=
  (physAccessible s.board (pteAddress a va i) 8 .load = false →
    translateVa s va t p = .error (accessFaultExc t)) ∧
  ∀ pte, EntryIs s a va i pte →
    (BadEntry s pte t p i → translateVa s va t p = .error (pageFaultExc t)) ∧
    (LockedEntry s (pteAddress a va i) pte t p i → translateVa s va t p = .error (accessFaultExc t))

/-- The translation through a leaf entry at `ea`: the physical address, and the write of the entry where an A or D
bit is missing (R147 steps 7 and 8). -/
def leafTranslation (ea pte pa : Word) (t : Access) : Translation where
  pa := pa
  update := if pte &&& setsBits t = setsBits t then none else some (ea, pte ||| setsBits t)

/-! ## The invariant -/

/-- What every run keeps: memory in its canonical form, the pc, mepc and sepc multiples of 4 (R24, R67, R77), no
bit set that the spec hardwires to 0 (R57, R58, R60, R65), and no S-level line before the controller is programmed
(R412). -/
def Inv (s : State) : Prop :=
  s.mem.wf = true ∧ s.pc.toNat % 4 = 0 ∧ s.mepc.toNat % 4 = 0 ∧ s.sepc.toNat % 4 = 0 ∧
  s.medeleg &&& ~~~0xB3FF#64 = 0#64 ∧ s.mideleg &&& ~~~0x222#64 = 0#64 ∧ s.mie &&& ~~~0xAAA#64 = 0#64 ∧
  s.mcountinhibit &&& ~~~0x1D#64 = 0#64 ∧ (s.extSei = true → s.plicProgrammed = true)

end Sys2Proof.Machine
end

