-- ==== Sys2Proof/Certificates/Slice0/Obligations.lean ====
section
/-! DEFINITION. The statements for the provers. Each says which sentences of spec/ it formalises; where a clause
rests on a decision of spec/92_eei_decisions.md (D) or on an entry of the assumption log, its docstring says so.
The predicates are those of Sys2Proof/Safety.lean. -/

open Sys2Proof Sys2Proof.Machine

/-! ## Encoding (spec/30_encoding.md) -/

/-- Every well-formed instruction, with every operand at every value, is what its own word decodes to. -/
def Obligations.DecodeOfEncodedInstruction : Prop :=
  ∀ i : Instr, WellFormed i → decodeWord (encode i) = .ok i

/-- Every word that decodes is the encoding of what it decodes to, which is well formed: no bit is dropped. -/
def Obligations.EncodeOfDecodedWord : Prop :=
  ∀ (w : InstrWord) (i : Instr), decodeWord w = .ok i → encode i = w ∧ WellFormed i

/-- A word is the instruction of a row of the opcode table iff `w & mask = match`, and then it decodes to an
instruction of that row (section 3; the bit patterns are the spec's own general knowledge). -/
def Obligations.DecodingFollowsTheOpcodeTable : Prop :=
  ∀ (w : InstrWord) (i : Instr), i.rowMatches w ↔ ∃ j, decodeWord w = .ok j ∧ j.sameRow i

/-- Some words of the examples of spec/40 to spec/46, one per family, decode to the instructions they are given
for. -/
def Obligations.ExampleWordsDecode : Prop :=
  decodeWord 0x123452B7#32 = .ok (.lui 5 0x12345) ∧ decodeWord 0xFFF30293#32 = .ok (.addi 5 6 0xFFF) ∧
  decodeWord 0x407352B3#32 = .ok (.sra 5 6 7) ∧ decodeWord 0xFFDFF06F#32 = .ok (.jal 0 0x1FFFFC) ∧
  decodeWord 0xFE730CE3#32 = .ok (.beq 6 7 0x1FF8) ∧ decodeWord 0x80033283#32 = .ok (.ld 5 6 0x800) ∧
  decodeWord 0xFE733C23#32 = .ok (.sd 6 7 0xFF8) ∧ decodeWord 0x4043529B#32 = .ok (.sraiw 5 6 4) ∧
  decodeWord 0x0FF0000F#32 = .ok (.fence 0 15 15 0 0) ∧ decodeWord 0x067322AF#32 = .ok (.amoaddW 1 1 5 6 7) ∧
  decodeWord 0x340312F3#32 = .ok (.csrrw 5 0x340 6) ∧ decodeWord 0x12730073#32 = .ok (.sfenceVma 6 7)

/-! ## The step (spec/00_scope.md R11) -/

/-- Where no interrupt is taken and the fetched word decodes to an instruction, the step is that instruction in the
state the fetch leaves, and then the time that passes. -/
def Obligations.StepRunsTheDecodedInstruction : Prop :=
  ∀ (s s1 : State) (w : InstrWord) (i : Instr), interruptTaken s = none → fetchWord s s.pc = .ok (w, s1) →
    decodeWord w = .ok i → step s = elapseResult (exec i s1)

/-- The same from the bytes in memory, little-endian, where no older bytes are cached. At an untranslated pc the four
bytes from the pc are the instruction the step runs. At a pc that translates to `tr`, whose physical address passes the
fetch check, the step runs the four bytes from that address, after the write of the entry's A bit and in the state that
write leaves: the entry holds its new value, every other byte of memory is as before, and so are the registers, the pc,
the mode and every CSR. (Where no older bytes are cached before the fetch, none are after that write but those of the
entry itself; which word such a history allows is StaleFetchIsConfined, log 9.) -/
def Obligations.StepRunsTheBytesAtThePc : Prop :=
  (∀ (s : State) (v : Word) (i : Instr), interruptTaken s = none → translated s s.priv = false →
    physAccessible s.board s.pc 4 .fetch = true → responder s.board s.pc.toNat 4 = .ram → s.codeHistory = [] →
    HoldsBytes s.mem s.pc.toNat 4 v → decodeWord (v.extractLsb' 0 32) = .ok i →
    step s = elapseResult (exec i s)) ∧
  ∀ (s u : State) (tr : Translation), translateVa s s.pc .fetch s.priv = .ok tr →
    physAccessible s.board tr.pa 4 .fetch = true → u = applyUpdate s tr.update →
    fetchWord s s.pc = .ok (fetchedWord u tr.pa, u) ∧
    (∀ (v : Word) (i : Instr), interruptTaken s = none → responder s.board tr.pa.toNat 4 = .ram →
      (∀ h ∈ u.codeHistory, h.1 ≠ doublewordOf tr.pa.toNat) → HoldsBytes u.mem tr.pa.toNat 4 v →
      decodeWord (v.extractLsb' 0 32) = .ok i → step s = elapseResult (exec i u)) ∧
    (∀ h ∈ u.codeHistory, h ∈ s.codeHistory ∨ ∃ e, tr.update = some e ∧ h.1 = doublewordOf e.1.toNat) ∧
    (s.mem.wf = true →
      (∀ e, tr.update = some e → responder s.board e.1.toNat 8 = .ram → HoldsBytes u.mem e.1.toNat 8 e.2) ∧
      ∀ a, ¬InUpdate tr a → u.mem.byteAt a = s.mem.byteAt a) ∧
    SameRegs s u ∧ u.pc = s.pc ∧ u.minstret = s.minstret ∧ SameSystem s u ∧ SameLines s u

/-- Where no instruction is obtained the step traps with the pc as saved pc. A fetch that fails: the pc is the trap
value, the exception the translation's, of code 12 or 1, or code 1 where the physical address does not answer. A word
of no row of the table: illegal instruction, the word as trap value (that every word not listed is illegal is D8). -/
def Obligations.FailedFetchOrDecodeTraps : Prop :=
  ∀ s : State, interruptTaken s = none →
    (∀ e, translateVa s s.pc .fetch s.priv = .error e →
      step s = elapseResult (.next (takeTrap s (.exc e) s.pc s.pc)) ∧ (e.code = 12 ∨ e.code = 1)) ∧
    (∀ tr, translateVa s s.pc .fetch s.priv = .ok tr → physAccessible s.board tr.pa 4 .fetch = false →
      step s = elapseResult (.next (takeTrap s (.exc .instrAccessFault) s.pc s.pc))) ∧
    (∀ (s1 : State) (w : InstrWord), fetchWord s s.pc = .ok (w, s1) → (∀ i : Instr, ¬i.rowMatches w) →
      step s = elapseResult (.next (takeTrap s1 (.exc .illegalInstruction) s.pc (w.setWidth 64))))

/-- An interrupt to be taken is taken before the instruction at the pc is fetched, with that pc saved and trap
value 0 (the trap value is D42, the sampling point D39). -/
def Obligations.InterruptIsTakenBeforeTheFetch : Prop :=
  ∀ (s : State) (i : Irq), interruptTaken s = some i →
    step s = elapseResult (.next (takeTrap s (.irq i) s.pc 0#64))

/-- Which interrupt is taken: none iff no condition holds; any for M mode before any for S mode; within a mode
the first of MEI, MSI, MTI, SEI, SSI, STI (the formula is D15, the order D14). -/
def Obligations.InterruptChoiceFollowsConditionAndOrder : Prop :=
  ∀ s : State,
    (interruptTaken s = none → ∀ j, ¬TakenInM s j ∧ ¬TakenInS s j) ∧
    ∀ i, interruptTaken s = some i →
      (TakenInM s i ∧ ∀ j, TakenInM s j → irqRank i ≤ irqRank j) ∨
      (TakenInS s i ∧ (∀ j, ¬TakenInM s j) ∧ ∀ j, TakenInS s j → irqRank i ≤ irqRank j)

/-- Every step of every state answers a next state: no condition stops the hart (there is no lockup, no halt; every
condition the spec names is a trap). The step counter advances by one and the board stays: the model's own fields
(log 1, log 17). -/
def Obligations.EveryStepAnswersANextState : Prop :=
  ∀ s : State, ∃ t, step s = .next t ∧ t.board = s.board ∧ t.tick = s.tick + 1

/-! ## The invariant and reset -/

/-- The invariant `Inv` is kept by every step from every state that has it. -/
def Obligations.EveryStepKeepsTheInvariant : Prop := ∀ s t : State, Inv s → step s = .next t → Inv t

/-- The invariant holds right after reset, on every board whose reset vector is a multiple of 4. -/
def Obligations.InvariantHoldsAtReset : Prop :=
  Inv State.reset ∧ ∀ b : Board, b.resetVector.toNat % 4 = 0 → Inv (State.resetOn b)

/-- What reset leaves, on every board: M mode, MIE and MPRV 0, the pc at the reset vector, medeleg and mideleg 0, the
S-level line low, the constants in place; and no interrupt is taken (section 1; the minimal reset is D6 and D7; the
other values of State.reset are the model's choice, logs 2 to 5, and are not stated here). -/
def Obligations.ResetLeavesMachineModeAtTheVector : Prop :=
  ∀ b : Board,
    (State.resetOn b).priv = .M ∧ (State.resetOn b).pc = b.resetVector ∧
    (csrRead (State.resetOn b) .mstatus).getLsbD 3 = false ∧
    (csrRead (State.resetOn b) .mstatus).getLsbD 17 = false ∧
    (csrRead (State.resetOn b) .mstatus).extractLsb' 32 4 = 0xF#4 ∧
    csrRead (State.resetOn b) .medeleg = 0#64 ∧ csrRead (State.resetOn b) .mideleg = 0#64 ∧
    (State.resetOn b).extSei = false ∧ (State.resetOn b).reg 0 = 0#64 ∧
    interruptTaken (State.resetOn b) = none

/-! ## Registers -/

/-- x0 reads 0 and discards writes; a write of another register is read back and changes no other (section 1). -/
def Obligations.RegisterZeroIsConstant : Prop :=
  ∀ (s : State) (r : Reg) (v : Word),
    s.reg 0 = 0#64 ∧ s.setReg 0 v = s ∧ (r ≠ 0 → (s.setReg r v).reg r = v) ∧
    ∀ q, q ≠ r → (s.setReg r v).reg q = s.reg q

/-! ## Integer computational instructions (spec/40_rv64i_integer.md) -/

/-- LUI and AUIPC complete with `sext_32(imm << 12)`, added to the pc by AUIPC. -/
def Obligations.UpperImmediatesComplete : Prop :=
  ∀ (s : State) (rd : Reg) (imm : BitVec 20),
    Writes s (exec (.lui rd imm) s) rd ((imm ++ 0#12 : BitVec 32).signExtend 64) ∧
    Writes s (exec (.auipc rd imm) s) rd (s.pc + (imm ++ 0#12 : BitVec 32).signExtend 64)

/-- ADDI, SLTI, SLTIU, ANDI, ORI, XORI complete on the sign-extended immediate; SLTIU compares it as unsigned. -/
def Obligations.ImmediateArithmeticCompletes : Prop :=
  ∀ (s : State) (rd rs1 : Reg) (imm : BitVec 12),
    Writes s (exec (.addi rd rs1 imm) s) rd (s.reg rs1 + imm.signExtend 64) ∧
    Writes s (exec (.slti rd rs1 imm) s) rd (if (s.reg rs1).slt (imm.signExtend 64) then 1#64 else 0#64) ∧
    Writes s (exec (.sltiu rd rs1 imm) s) rd (if (s.reg rs1).ult (imm.signExtend 64) then 1#64 else 0#64) ∧
    Writes s (exec (.andi rd rs1 imm) s) rd (s.reg rs1 &&& imm.signExtend 64) ∧
    Writes s (exec (.ori rd rs1 imm) s) rd (s.reg rs1 ||| imm.signExtend 64) ∧
    Writes s (exec (.xori rd rs1 imm) s) rd (s.reg rs1 ^^^ imm.signExtend 64)

/-- SLLI, SRLI, SRAI, SLL, SRL, SRA complete: zero fill, zero fill, sign fill; only the low 6 bits of `x[rs2]` count
as a shift amount. -/
def Obligations.ShiftsComplete : Prop :=
  ∀ (s : State) (rd rs1 rs2 : Reg) (shamt : BitVec 6),
    Writes s (exec (.slli rd rs1 shamt) s) rd (s.reg rs1 <<< shamt) ∧
    Writes s (exec (.srli rd rs1 shamt) s) rd (s.reg rs1 >>> shamt) ∧
    Writes s (exec (.srai rd rs1 shamt) s) rd ((s.reg rs1).sshiftRight' shamt) ∧
    Writes s (exec (.sll rd rs1 rs2) s) rd (s.reg rs1 <<< (s.reg rs2 &&& 63#64)) ∧
    Writes s (exec (.srl rd rs1 rs2) s) rd (s.reg rs1 >>> (s.reg rs2 &&& 63#64)) ∧
    Writes s (exec (.sra rd rs1 rs2) s) rd ((s.reg rs1).sshiftRight' (s.reg rs2 &&& 63#64))

/-- ADD, SUB, SLT, SLTU, AND, OR, XOR complete, wrapping modulo 2^64. -/
def Obligations.RegisterArithmeticCompletes : Prop :=
  ∀ (s : State) (rd rs1 rs2 : Reg),
    Writes s (exec (.add rd rs1 rs2) s) rd (s.reg rs1 + s.reg rs2) ∧
    Writes s (exec (.sub rd rs1 rs2) s) rd (s.reg rs1 - s.reg rs2) ∧
    Writes s (exec (.slt rd rs1 rs2) s) rd (if (s.reg rs1).slt (s.reg rs2) then 1#64 else 0#64) ∧
    Writes s (exec (.sltu rd rs1 rs2) s) rd (if (s.reg rs1).ult (s.reg rs2) then 1#64 else 0#64) ∧
    Writes s (exec (.and rd rs1 rs2) s) rd (s.reg rs1 &&& s.reg rs2) ∧
    Writes s (exec (.or rd rs1 rs2) s) rd (s.reg rs1 ||| s.reg rs2) ∧
    Writes s (exec (.xor rd rs1 rs2) s) rd (s.reg rs1 ^^^ s.reg rs2)

/-! ## 32-bit operations (spec/43_rv64i_word.md) -/

/-- ADDIW, SLLIW, SRLIW, SRAIW complete: low 32 bits in, the 32-bit result sign-extended. -/
def Obligations.WordImmediatesComplete : Prop :=
  ∀ (s : State) (rd rs1 : Reg) (imm : BitVec 12) (shamt : BitVec 5),
    Writes s (exec (.addiw rd rs1 imm) s) rd (((s.reg rs1 + imm.signExtend 64).extractLsb' 0 32).signExtend 64) ∧
    Writes s (exec (.slliw rd rs1 shamt) s) rd (((s.reg rs1).extractLsb' 0 32 <<< shamt).signExtend 64) ∧
    Writes s (exec (.srliw rd rs1 shamt) s) rd (((s.reg rs1).extractLsb' 0 32 >>> shamt).signExtend 64) ∧
    Writes s (exec (.sraiw rd rs1 shamt) s) rd
      ((((s.reg rs1).extractLsb' 0 32).sshiftRight' shamt).signExtend 64)

/-- ADDW, SUBW, SLLW, SRLW, SRAW complete; only the low 5 bits of `x[rs2]` count as a shift amount. -/
def Obligations.WordRegistersComplete : Prop :=
  ∀ (s : State) (rd rs1 rs2 : Reg),
    Writes s (exec (.addw rd rs1 rs2) s) rd (((s.reg rs1 + s.reg rs2).extractLsb' 0 32).signExtend 64) ∧
    Writes s (exec (.subw rd rs1 rs2) s) rd (((s.reg rs1 - s.reg rs2).extractLsb' 0 32).signExtend 64) ∧
    Writes s (exec (.sllw rd rs1 rs2) s) rd
      (((s.reg rs1).extractLsb' 0 32 <<< (s.reg rs2 &&& 31#64)).signExtend 64) ∧
    Writes s (exec (.srlw rd rs1 rs2) s) rd
      (((s.reg rs1).extractLsb' 0 32 >>> (s.reg rs2 &&& 31#64)).signExtend 64) ∧
    Writes s (exec (.sraw rd rs1 rs2) s) rd
      ((((s.reg rs1).extractLsb' 0 32).sshiftRight' (s.reg rs2 &&& 31#64)).signExtend 64)

/-! ## Control transfer (spec/41_rv64i_control.md) -/

/-- JAL and JALR with a target that is a multiple of 4 complete there and link `pc + 4`; JALR clears bit 0 of the sum
(D4) and uses the old `x[rs1]`. -/
def Obligations.JumpsComplete : Prop :=
  ∀ (s : State) (rd rs1 : Reg) (off : BitVec 21) (imm : BitVec 12),
    ((s.pc + off.signExtend 64).toNat % 4 = 0 →
      WritesAndGoes s (exec (.jal rd off) s) rd (s.pc + 4#64) (s.pc + off.signExtend 64)) ∧
    (((s.reg rs1 + imm.signExtend 64) &&& ~~~1#64).toNat % 4 = 0 →
      WritesAndGoes s (exec (.jalr rd rs1 imm) s) rd (s.pc + 4#64) ((s.reg rs1 + imm.signExtend 64) &&& ~~~1#64))

/-- The six branches complete: at the target where the condition holds, the target being a multiple of 4, else at the
next instruction, whatever the offset. -/
def Obligations.BranchesComplete : Prop :=
  ∀ (s : State) (rs1 rs2 : Reg) (off : BitVec 13) (i : Instr) (taken : Bool),
    (i = .beq rs1 rs2 off ∧ taken = decide (s.reg rs1 = s.reg rs2)) ∨
    (i = .bne rs1 rs2 off ∧ taken = decide (s.reg rs1 ≠ s.reg rs2)) ∨
    (i = .blt rs1 rs2 off ∧ taken = (s.reg rs1).slt (s.reg rs2)) ∨
    (i = .bltu rs1 rs2 off ∧ taken = (s.reg rs1).ult (s.reg rs2)) ∨
    (i = .bge rs1 rs2 off ∧ taken = (s.reg rs2).sle (s.reg rs1)) ∨
    (i = .bgeu rs1 rs2 off ∧ taken = (s.reg rs2).ule (s.reg rs1)) →
    (taken = true → (s.pc + off.signExtend 64).toNat % 4 = 0 → Goes s (exec i s) (s.pc + off.signExtend 64)) ∧
    (taken = false → Goes s (exec i s) (s.pc + 4#64))

/-- A JAL, a JALR or a taken branch to a target that is no multiple of 4 traps on itself with code 0 and the target as
trap value, and writes no register (D3). -/
def Obligations.MisalignedTargetsTrap : Prop :=
  ∀ (s : State) (rd rs1 rs2 : Reg) (off : BitVec 13) (joff : BitVec 21) (imm : BitVec 12),
    ((s.pc + joff.signExtend 64).toNat % 4 ≠ 0 →
      Traps s (exec (.jal rd joff) s) .instrMisaligned s.pc (s.pc + joff.signExtend 64)) ∧
    (((s.reg rs1 + imm.signExtend 64) &&& ~~~1#64).toNat % 4 ≠ 0 →
      Traps s (exec (.jalr rd rs1 imm) s) .instrMisaligned s.pc ((s.reg rs1 + imm.signExtend 64) &&& ~~~1#64)) ∧
    ((s.pc + off.signExtend 64).toNat % 4 ≠ 0 →
      (s.reg rs1 = s.reg rs2 →
        Traps s (exec (.beq rs1 rs2 off) s) .instrMisaligned s.pc (s.pc + off.signExtend 64)) ∧
      (s.reg rs1 ≠ s.reg rs2 →
        Traps s (exec (.bne rs1 rs2 off) s) .instrMisaligned s.pc (s.pc + off.signExtend 64)) ∧
      ((s.reg rs1).slt (s.reg rs2) = true →
        Traps s (exec (.blt rs1 rs2 off) s) .instrMisaligned s.pc (s.pc + off.signExtend 64)) ∧
      ((s.reg rs1).ult (s.reg rs2) = true →
        Traps s (exec (.bltu rs1 rs2 off) s) .instrMisaligned s.pc (s.pc + off.signExtend 64)) ∧
      ((s.reg rs1).slt (s.reg rs2) = false →
        Traps s (exec (.bge rs1 rs2 off) s) .instrMisaligned s.pc (s.pc + off.signExtend 64)) ∧
      ((s.reg rs1).ult (s.reg rs2) = false →
        Traps s (exec (.bgeu rs1 rs2 off) s) .instrMisaligned s.pc (s.pc + off.signExtend 64)))

/-! ## Loads and stores (spec/42_rv64i_loadstore.md) -/

/-- The seven loads complete at an address whose access passes every check. (That one responder answers a load which
covers bytes of a device and of memory beside them is the model's choice, log 26.) -/
def Obligations.LoadsComplete : Prop :=
  ∀ (s : State) (rd rs1 : Reg) (imm : BitVec 12) (tr : Translation), s.mem.wf = true →
    (DataOk s (s.reg rs1 + imm.signExtend 64) .load 1 tr →
      Loads s (exec (.lb rd rs1 imm) s) rd tr 1 (fun v => (v.setWidth 8).signExtend 64) ∧
      Loads s (exec (.lbu rd rs1 imm) s) rd tr 1 (fun v => (v.setWidth 8).setWidth 64)) ∧
    (DataOk s (s.reg rs1 + imm.signExtend 64) .load 2 tr →
      Loads s (exec (.lh rd rs1 imm) s) rd tr 2 (fun v => (v.setWidth 16).signExtend 64) ∧
      Loads s (exec (.lhu rd rs1 imm) s) rd tr 2 (fun v => (v.setWidth 16).setWidth 64)) ∧
    (DataOk s (s.reg rs1 + imm.signExtend 64) .load 4 tr →
      Loads s (exec (.lw rd rs1 imm) s) rd tr 4 (fun v => (v.setWidth 32).signExtend 64) ∧
      Loads s (exec (.lwu rd rs1 imm) s) rd tr 4 (fun v => (v.setWidth 32).setWidth 64)) ∧
    (DataOk s (s.reg rs1 + imm.signExtend 64) .load 8 tr →
      Loads s (exec (.ld rd rs1 imm) s) rd tr 8 (fun v => v))

/-- The four stores complete at an address whose access passes every check: the bytes stored to are the form's width
from the physical address of the translation. Where a device answers, memory keeps its bytes; that this holds of the
bytes beside a device which the store covers too is the model's choice (log 26, no rule of the spec). -/
def Obligations.StoresComplete : Prop :=
  ∀ (s : State) (rs1 rs2 : Reg) (imm : BitVec 12) (tr : Translation), s.mem.wf = true →
    (DataOk s (s.reg rs1 + imm.signExtend 64) .store 1 tr →
      Stores s (exec (.sb rs1 rs2 imm) s) tr 1 (s.reg rs2)) ∧
    (DataOk s (s.reg rs1 + imm.signExtend 64) .store 2 tr →
      Stores s (exec (.sh rs1 rs2 imm) s) tr 2 (s.reg rs2)) ∧
    (DataOk s (s.reg rs1 + imm.signExtend 64) .store 4 tr →
      Stores s (exec (.sw rs1 rs2 imm) s) tr 4 (s.reg rs2)) ∧
    (DataOk s (s.reg rs1 + imm.signExtend 64) .store 8 tr →
      Stores s (exec (.sd rs1 rs2 imm) s) tr 8 (s.reg rs2))

/-- A doubleword stored by SD loads back by LD and, byte by byte in little-endian order, by LBU, with no fence
between (untranslated, in memory; little-endian is D1, one agent in program order D27). -/
def Obligations.StoredDoublewordLoadsBack : Prop :=
  ∀ (s t : State) (rd rs1 rs2 : Reg) (imm immk : BitVec 12) (k : Nat), s.mem.wf = true →
    translated s s.dataPriv = false → rd ≠ 0 → k < 8 →
    (s.reg rs1 + imm.signExtend 64).toNat % 8 = 0 →
    s.reg rs1 + immk.signExtend 64 = s.reg rs1 + imm.signExtend 64 + BitVec.ofNat 64 k →
    physAccessible s.board (s.reg rs1 + imm.signExtend 64) 8 .store = true →
    physAccessible s.board (s.reg rs1 + imm.signExtend 64) 8 .load = true →
    physAccessible s.board (s.reg rs1 + immk.signExtend 64) 1 .load = true →
    responder s.board (s.reg rs1 + imm.signExtend 64).toNat 8 = .ram →
    responder s.board (s.reg rs1 + immk.signExtend 64).toNat 1 = .ram →
    exec (.sd rs1 rs2 imm) s = .next t →
    (∃ u, exec (.ld rd rs1 imm) t = .next u ∧ u.reg rd = s.reg rs2) ∧
    ∃ u, exec (.lbu rd rs1 immk) t = .next u ∧ u.reg rd = ((s.reg rs2).extractLsb' (8 * k) 8).setWidth 64

/-- A data access that fails a check traps, in this order: a misaligned address by code 4 or 6, the translation's
exception, an inaccessible physical address by code 5 or 7; the trap value is the virtual address, and AMOs and SC
fault as stores (the order is D13, that every misaligned access traps D2). It covers all 33 instructions that access
data. -/
def Obligations.FailedDataAccessTraps : Prop :=
  ∀ (s : State) (i : Instr) (t : Access) (va : Word) (n : Nat), dataAccess s i = some (t, va, n) →
    (va.toNat % n ≠ 0 →
      Traps s (exec i s) (if t = .load then .loadMisaligned else .storeMisaligned) s.pc va) ∧
    (va.toNat % n = 0 → ∀ e, translateVa s va t s.dataPriv = .error e → Traps s (exec i s) e s.pc va) ∧
    (va.toNat % n = 0 → ∀ tr, translateVa s va t s.dataPriv = .ok tr → physAccessible s.board tr.pa n t = false →
      Traps s (exec i s) (if t = .load then .loadAccessFault else .storeAccessFault) s.pc va)

/-! ## Atomics (spec/45_rv64a_atomic.md) -/

/-- LR loads and SC stores, always with success, whatever came before (no reservation exists: D28; an access over a
device and memory beside it is log 26). -/
def Obligations.LoadReservedAndStoreConditionalComplete : Prop :=
  ∀ (s : State) (aq rl : BitVec 1) (rd rs1 rs2 : Reg) (tr : Translation), s.mem.wf = true →
    (DataOk s (s.reg rs1) .load 4 tr → Loads s (exec (.lrW aq rl rd rs1) s) rd tr 4 sextWord) ∧
    (DataOk s (s.reg rs1) .load 8 tr → Loads s (exec (.lrD aq rl rd rs1) s) rd tr 8 (fun v => v)) ∧
    (DataOk s (s.reg rs1) .store 4 tr →
      StoresAndClears s (exec (.scW aq rl rd rs1 rs2) s) rd tr 4 (s.reg rs2)) ∧
    (DataOk s (s.reg rs1) .store 8 tr →
      StoresAndClears s (exec (.scD aq rl rd rs1 rs2) s) rd tr 8 (s.reg rs2))

/-- The nine AMO.W complete at an address whose access passes every check as a store: `x[rd]` is the old word
sign-extended, and the function of the old word and the low word of `x[rs2]` is stored (an access over a device and
memory beside it is log 26). -/
def Obligations.AtomicWordsComplete : Prop :=
  ∀ (s : State) (aq rl : BitVec 1) (rd rs1 rs2 : Reg) (tr : Translation), s.mem.wf = true →
    DataOk s (s.reg rs1) .store 4 tr →
    Updates s (exec (.amoswapW aq rl rd rs1 rs2) s) rd tr 4 sextWord (lowWords (fun _ src => src) (s.reg rs2)) ∧
    Updates s (exec (.amoaddW aq rl rd rs1 rs2) s) rd tr 4 sextWord
      (lowWords (fun old src => old + src) (s.reg rs2)) ∧
    Updates s (exec (.amoandW aq rl rd rs1 rs2) s) rd tr 4 sextWord
      (lowWords (fun old src => old &&& src) (s.reg rs2)) ∧
    Updates s (exec (.amoorW aq rl rd rs1 rs2) s) rd tr 4 sextWord
      (lowWords (fun old src => old ||| src) (s.reg rs2)) ∧
    Updates s (exec (.amoxorW aq rl rd rs1 rs2) s) rd tr 4 sextWord
      (lowWords (fun old src => old ^^^ src) (s.reg rs2)) ∧
    Updates s (exec (.amomaxW aq rl rd rs1 rs2) s) rd tr 4 sextWord
      (lowWords (fun old src => if src.sle old then old else src) (s.reg rs2)) ∧
    Updates s (exec (.amominW aq rl rd rs1 rs2) s) rd tr 4 sextWord
      (lowWords (fun old src => if old.sle src then old else src) (s.reg rs2)) ∧
    Updates s (exec (.amomaxuW aq rl rd rs1 rs2) s) rd tr 4 sextWord
      (lowWords (fun old src => if src.ule old then old else src) (s.reg rs2)) ∧
    Updates s (exec (.amominuW aq rl rd rs1 rs2) s) rd tr 4 sextWord
      (lowWords (fun old src => if old.ule src then old else src) (s.reg rs2))

/-- The nine AMO.D complete likewise on doublewords (log 26 as above). -/
def Obligations.AtomicDoublewordsComplete : Prop :=
  ∀ (s : State) (aq rl : BitVec 1) (rd rs1 rs2 : Reg) (tr : Translation), s.mem.wf = true →
    DataOk s (s.reg rs1) .store 8 tr →
    Updates s (exec (.amoswapD aq rl rd rs1 rs2) s) rd tr 8 (fun v => v) (fun _ => s.reg rs2) ∧
    Updates s (exec (.amoaddD aq rl rd rs1 rs2) s) rd tr 8 (fun v => v) (fun old => old + s.reg rs2) ∧
    Updates s (exec (.amoandD aq rl rd rs1 rs2) s) rd tr 8 (fun v => v) (fun old => old &&& s.reg rs2) ∧
    Updates s (exec (.amoorD aq rl rd rs1 rs2) s) rd tr 8 (fun v => v) (fun old => old ||| s.reg rs2) ∧
    Updates s (exec (.amoxorD aq rl rd rs1 rs2) s) rd tr 8 (fun v => v) (fun old => old ^^^ s.reg rs2) ∧
    Updates s (exec (.amomaxD aq rl rd rs1 rs2) s) rd tr 8 (fun v => v)
      (fun old => if (s.reg rs2).sle old then old else s.reg rs2) ∧
    Updates s (exec (.amominD aq rl rd rs1 rs2) s) rd tr 8 (fun v => v)
      (fun old => if old.sle (s.reg rs2) then old else s.reg rs2) ∧
    Updates s (exec (.amomaxuD aq rl rd rs1 rs2) s) rd tr 8 (fun v => v)
      (fun old => if (s.reg rs2).ule old then old else s.reg rs2) ∧
    Updates s (exec (.amominuD aq rl rd rs1 rs2) s) rd tr 8 (fun v => v)
      (fun old => if old.ule (s.reg rs2) then old else s.reg rs2)

/-! ## Fences (spec/44_rv64i_fence.md) and hidden state (spec/20_memory.md R154, R155, R162) -/

/-- FENCE and FENCE.I complete whatever their fields hold; FENCE changes nothing else (D37), FENCE.I only ends the
window of stale fetches. -/
def Obligations.FencesComplete : Prop :=
  ∀ (s : State) (fm pred succ : BitVec 4) (imm : BitVec 12) (rd rs1 : Reg),
    Goes s (exec (.fence fm pred succ rd rs1) s) (s.pc + 4#64) ∧
    ∃ t, exec (.fenceI imm rd rs1) s = .next t ∧ SameRegs s t ∧ t.pc = s.pc + 4#64 ∧ Counted s t ∧
      SameSystem s t ∧ SamePlatform s t ∧ SameMemory s t ∧ t.codeHistory = [] ∧
      t.pteHistory = s.pteHistory ∧ t.rootHistory = s.rootHistory

/-- A fetch returns the bytes in memory or bytes that a store has overwritten since the last FENCE.I; where none was
overwritten, and so right after a FENCE.I, it returns the bytes in memory. A write of memory adds the doubleword it
overwrites to what a fetch may return, and no other write does. No fetch and no instruction adds anything but values
that memory held, and none but FENCE.I drops any. A fetch that a device answers returns a draw (section 4; the mechanism
is log 9; that a write over a device and memory beside it writes no memory is log 26; that every bit of a word fetched
from a device is a draw is log 28). -/
def Obligations.StaleFetchIsConfined : Prop :=
  ∀ (s : State) (pa v : Word) (n : Nat),
    (responder s.board pa.toNat 4 = .ram →
      (fetchedWord s pa = (s.mem.load pa.toNat 4).setWidth 32 ∨
        ∃ h ∈ s.codeHistory, h.1 = doublewordOf pa.toNat ∧ fetchedWord s pa = halfOf h.2 (decide (pa.toNat % 8 = 4))) ∧
      ((∀ h ∈ s.codeHistory, h.1 ≠ doublewordOf pa.toNat) →
        fetchedWord s pa = (s.mem.load pa.toNat 4).setWidth 32)) ∧
    (responder s.board pa.toNat 4 ≠ .ram →
      fetchedWord s pa = (Config.deviceRead s.tick (.data .fetch) pa.toNat).setWidth 32) ∧
    (physWrite s pa n v).codeHistory =
      (if responder s.board pa.toNat n = .ram then
        (doublewordOf pa.toNat, s.mem.load (doublewordOf pa.toNat) 8) :: s.codeHistory else s.codeHistory) ∧
    (∀ (va : Word) (w : InstrWord) (u : State), fetchWord s va = .ok (w, u) →
      HeldBefore s s.codeHistory u.codeHistory ∧ s.codeHistory ⊆ u.codeHistory) ∧
    ∀ (i : Instr) (t : State), exec i s = .next t →
      HeldDuring s i s.codeHistory t.codeHistory ∧
      (s.codeHistory ⊆ t.codeHistory ∨ ∃ imm rd rs1, i = .fenceI imm rd rs1)

/-- SFENCE.VMA in a mode that may run it completes whatever rs1 and rs2 name, and empties both TLBs (that it flushes
everything is D17); WFI in a mode that may run it is a no-operation that retires (D16). -/
def Obligations.SfenceVmaAndWfiComplete : Prop :=
  ∀ (s : State) (rs1 rs2 : Reg),
    ((s.priv = .M ∨ (s.priv = .S ∧ (csrRead s .mstatus).getLsbD 20 = false)) →
      ∃ t, exec (.sfenceVma rs1 rs2) s = .next t ∧ TlbClean t ∧ SameRegs s t ∧ t.pc = s.pc + 4#64 ∧ Counted s t ∧
        SameSystem s t ∧ SamePlatform s t ∧ SameMemory s t ∧ t.codeHistory = s.codeHistory) ∧
    ((s.priv = .M ∨ (csrRead s .mstatus).getLsbD 21 = false) → Goes s (exec .wfi s) (s.pc + 4#64))

/-- A walk uses the entry in memory or one that its doubleword held since the last SFENCE.VMA, and starts from satp's
root or one that satp held since then; with clean TLBs it uses what memory and satp hold. A write of memory adds the
doubleword it overwrites to those entries, and a CSR write that changes satp while its MODE is 8 adds its root to
those roots. No fetch and no instruction adds anything but values that memory held and the root that satp held, and
none but SFENCE.VMA drops any. Every older value of an entry is among those a walk draws from, with the permissions and
the A and D bits it had, but for one that leads to the same outcome: the value in memory, or that value without bits
which the access sets in it again, in memory that takes the write (section 3, form (b); the mechanism is log 10 and
log 27; log 26 as for a fetch). -/
def Obligations.StaleTranslationIsConfined : Prop :=
  ∀ (s : State) (k : Access) (l n : Nat) (ea cur pa v : Word),
    (usedEntry s k l ea cur = cur ∨ ∃ h ∈ s.pteHistory, h.1 = ea.toNat ∧ usedEntry s k l ea cur = h.2) ∧
    usedEntry s k l ea cur = pickVersion cur (staleEntries s k ea cur) (Config.ptePick s.tick k l) ∧
    (∀ e ∈ staleEntries s k ea cur, ∃ m, pickVersion cur (staleEntries s k ea cur) m = e) ∧
    (∀ h ∈ s.pteHistory, h.1 = ea.toNat → h.2 ∈ staleEntries s k ea cur ∨ h.2 = cur ∨
      (h.2 ||| (cur &&& setsBits k) = cur ∧ physAccessible s.board ea 8 .store = true ∧
        responder s.board ea.toNat 8 = .ram)) ∧
    (usedRoot s k = s.satp.ppn ∨ usedRoot s k ∈ s.rootHistory) ∧
    (TlbClean s → usedEntry s k l ea cur = cur ∧ usedRoot s k = s.satp.ppn) ∧
    (physWrite s pa n v).pteHistory =
      (if responder s.board pa.toNat n = .ram then
        (doublewordOf pa.toNat, s.mem.load (doublewordOf pa.toNat) 8) :: s.pteHistory else s.pteHistory) ∧
    ((csrRead s .satp).extractLsb' 60 4 = 8#4 → csrRead (csrWrite s v .satp) .satp ≠ csrRead s .satp →
      (csrWrite s v .satp).rootHistory = (csrRead s .satp).extractLsb' 0 44 :: s.rootHistory) ∧
    (∀ (va : Word) (w : InstrWord) (u : State), fetchWord s va = .ok (w, u) →
      HeldBefore s s.pteHistory u.pteHistory ∧ s.pteHistory ⊆ u.pteHistory ∧ u.rootHistory = s.rootHistory) ∧
    ∀ (i : Instr) (t : State), exec i s = .next t →
      HeldDuring s i s.pteHistory t.pteHistory ∧
      (∀ r ∈ t.rootHistory, r ∈ s.rootHistory ∨
        ((csrRead s .satp).extractLsb' 60 4 = 8#4 ∧ r = (csrRead s .satp).extractLsb' 0 44)) ∧
      ((s.pteHistory ⊆ t.pteHistory ∧ s.rootHistory ⊆ t.rootHistory) ∨ ∃ rs1 rs2, i = .sfenceVma rs1 rs2)

/-! ## SYSTEM (spec/46_system.md) -/

/-- MRET, SRET, SFENCE.VMA and WFI in a mode that may not run them raise illegal instruction with their own word as
trap value: MRET below M; SRET in U, in S with TSR = 1, and in M unless the board allows it (D12); SFENCE.VMA in U and
in S with TVM = 1; WFI below M with TW = 1 (D16). -/
def Obligations.PrivilegedInstructionsAreIllegalBelow : Prop :=
  ∀ (s : State) (rs1 rs2 : Reg),
    (s.priv ≠ .M → Traps s (exec .mret s) .illegalInstruction s.pc 0x30200073#64) ∧
    ((s.priv = .U ∨ (s.priv = .S ∧ (csrRead s .mstatus).getLsbD 22 = true) ∨
        (s.priv = .M ∧ s.board.sretInMLegal = false)) →
      Traps s (exec .sret s) .illegalInstruction s.pc 0x10200073#64) ∧
    ((s.priv = .U ∨ (s.priv = .S ∧ (csrRead s .mstatus).getLsbD 20 = true)) →
      Traps s (exec (.sfenceVma rs1 rs2) s) .illegalInstruction s.pc
        ((0b0001001#7 ++ rs2 ++ rs1 ++ 0b000#3 ++ 0b00000#5 ++ 0b1110011#7 : BitVec 32).setWidth 64)) ∧
    ((s.priv ≠ .M ∧ (csrRead s .mstatus).getLsbD 21 = true) →
      Traps s (exec .wfi s) .illegalInstruction s.pc 0x10500073#64)

/-- MRET in M mode, and SRET in S mode with TSR = 0 or in M mode on a board that allows it, complete: the mode becomes
the previous one, xIE takes xPIE, xPIE becomes 1, xPP becomes U, the pc is xepc, and nothing else changes (the
restoration of xIE is D11). -/
def Obligations.TrapReturnsComplete : Prop :=
  ∀ s : State,
    (s.priv = .M → ∃ t, exec .mret s = .next t ∧ t.priv = s.mstatus.mpp ∧ t.pc = csrRead s .mepc ∧
      t.mstatus = { s.mstatus with mie := s.mstatus.mpie, mpie := true, mpp := .U } ∧ SameRegs s t ∧
      Counted s t ∧ SameTrapRegs s t ∧ SameControl s t ∧ SamePlatform s t ∧ SameHidden s t ∧ SameMemory s t) ∧
    ((s.priv = .S ∧ (csrRead s .mstatus).getLsbD 22 = false) ∨ (s.priv = .M ∧ s.board.sretInMLegal = true) →
      ∃ t, exec .sret s = .next t ∧ t.priv = (if s.mstatus.spp then .S else .U) ∧ t.pc = csrRead s .sepc ∧
      t.mstatus = { s.mstatus with sie := s.mstatus.spie, spie := true, spp := false } ∧ SameRegs s t ∧
      Counted s t ∧ SameTrapRegs s t ∧ SameControl s t ∧ SamePlatform s t ∧ SameHidden s t ∧ SameMemory s t)

/-- ECALL and EBREAK trap with the next instruction's address as saved pc and their own as trap value (D35): ECALL by
code 8, 9 or 11 as the mode is U, S or M, EBREAK by code 3. -/
def Obligations.EnvironmentCallsTrap : Prop :=
  ∀ s : State,
    (s.priv = .U → Traps s (exec .ecall s) .ecallU (s.pc + 4#64) s.pc) ∧
    (s.priv = .S → Traps s (exec .ecall s) .ecallS (s.pc + 4#64) s.pc) ∧
    (s.priv = .M → Traps s (exec .ecall s) .ecallM (s.pc + 4#64) s.pc) ∧
    Traps s (exec .ebreak s) .breakpoint (s.pc + 4#64) s.pc

/-- The CSRs that exist are those of the table of R30. The access check of the CSR instructions fails exactly where: the
number is not in the table; it needs more privilege (its bits 9:8); it is read-only (bits 11:10 are 11) and would be
written; it is satp in S mode with TVM = 1 (that a violation is illegal is D9). Where it fails, the instruction is
illegal with its own word as trap value. -/
def Obligations.CsrAccessCheck : Prop :=
  ∀ (s : State) (a : CsrAddr) (writes : Bool),
    (∀ c, csrOf a = some c ↔ (a, c) ∈ csrTable) ∧
    (csrCheck s a writes = none ↔
      (∀ c, (a, c) ∉ csrTable) ∨ s.priv.bits.toNat < (a.extractLsb' 8 2).toNat ∨
      (writes = true ∧ a.extractLsb' 10 2 = 0b11#2) ∨
      (a = 0x180#12 ∧ s.priv = .S ∧ (csrRead s .mstatus).getLsbD 20 = true)) ∧
    (∀ c, csrCheck s a writes = some c → csrOf a = some c) ∧
    ∀ (i : Instr) (rd rs1 uimm : Reg),
      (i = .csrrw rd a rs1 ∧ writes = true) ∨ (i = .csrrs rd a rs1 ∧ writes = decide (rs1 ≠ 0#5)) ∨
      (i = .csrrc rd a rs1 ∧ writes = decide (rs1 ≠ 0#5)) ∨ (i = .csrrwi rd a uimm ∧ writes = true) ∨
      (i = .csrrsi rd a uimm ∧ writes = decide (uimm ≠ 0#5)) ∨
      (i = .csrrci rd a uimm ∧ writes = decide (uimm ≠ 0#5)) →
      csrCheck s a writes = none → Traps s (exec i s) .illegalInstruction s.pc ((encode i).setWidth 64)

/-- The six CSR instructions whose check passes complete: `x[rd]` is the old value; CSRRW and CSRRWI always write,
CSRRS and CSRRC write unless rs1 is x0, CSRRSI and CSRRCI unless the immediate is 0 (D10). That the instruction which
writes mcountinhibit is counted in minstret by the new IR bit is the model's choice (log 18, DEDUCED), no rule of the
spec. -/
def Obligations.CsrInstructionsComplete : Prop :=
  ∀ (s : State) (rd rs1 : Reg) (uimm : BitVec 5) (a : CsrAddr) (c : Csr),
    (csrCheck s a true = some c → CsrDone s (exec (.csrrw rd a rs1) s) rd c True (s.reg rs1)) ∧
    (csrCheck s a true = some c → CsrDone s (exec (.csrrwi rd a uimm) s) rd c True (uimm.setWidth 64)) ∧
    (csrCheck s a (decide (rs1 ≠ 0#5)) = some c →
      CsrDone s (exec (.csrrs rd a rs1) s) rd c (rs1 ≠ 0#5) (readModifyValue s c ||| s.reg rs1)) ∧
    (csrCheck s a (decide (rs1 ≠ 0#5)) = some c →
      CsrDone s (exec (.csrrc rd a rs1) s) rd c (rs1 ≠ 0#5) (readModifyValue s c &&& ~~~s.reg rs1)) ∧
    (csrCheck s a (decide (uimm ≠ 0#5)) = some c →
      CsrDone s (exec (.csrrsi rd a uimm) s) rd c (uimm ≠ 0#5) (readModifyValue s c ||| uimm.setWidth 64)) ∧
    (csrCheck s a (decide (uimm ≠ 0#5)) = some c →
      CsrDone s (exec (.csrrci rd a uimm) s) rd c (uimm ≠ 0#5) (readModifyValue s c &&& ~~~(uimm.setWidth 64)))

/-! ## Control and status registers (spec/10_state.md) -/

/-- What a CSR reads as right after a write: the written value through the write mask of its rule (the low bits of
mepc and sepc are D20, the counter enables D24; mcause and scause take as written a pair that their table lists, the
interrupt codes 3, 7 and 11 being reserved in scause's). -/
def Obligations.CsrWritesAreMasked : Prop :=
  ∀ (s : State) (v : Word),
    csrRead (csrWrite s v .medeleg) .medeleg = v &&& 0xB3FF#64 ∧
    csrRead (csrWrite s v .mideleg) .mideleg = v &&& 0x222#64 ∧
    csrRead (csrWrite s v .mie) .mie = v &&& 0xAAA#64 ∧
    csrRead (csrWrite s v .mcounteren) .mcounteren = v &&& 0x1F#64 ∧
    csrRead (csrWrite s v .scounteren) .scounteren = v &&& 0x1F#64 ∧
    csrRead (csrWrite s v .mcountinhibit) .mcountinhibit = v &&& 0x1D#64 ∧
    csrRead (csrWrite s v .mepc) .mepc = v &&& ~~~3#64 ∧ csrRead (csrWrite s v .sepc) .sepc = v &&& ~~~3#64 ∧
    csrRead (csrWrite s v .mscratch) .mscratch = v ∧ csrRead (csrWrite s v .sscratch) .sscratch = v ∧
    csrRead (csrWrite s v .mtval) .mtval = v ∧ csrRead (csrWrite s v .stval) .stval = v ∧
    csrRead (csrWrite s v .mcycle) .mcycle = v ∧ csrRead (csrWrite s v .minstret) .minstret = v ∧
    (∀ e : Exc, v = BitVec.ofNat 64 e.code →
      csrRead (csrWrite s v .mcause) .mcause = v ∧ csrRead (csrWrite s v .scause) .scause = v) ∧
    (∀ i : Irq, v = 0x8000000000000000#64 + BitVec.ofNat 64 i.code →
      csrRead (csrWrite s v .mcause) .mcause = v ∧
      (i = .ssi ∨ i = .sti ∨ i = .sei → csrRead (csrWrite s v .scause) .scause = v))

/-- mstatus after a CSR write: the written bits of the mask 0x7E19AA, with MPP kept where 10 is written (D21), and bits
35:32 read 1111 (D36). -/
def Obligations.MstatusWriteIsMasked : Prop :=
  ∀ (s : State) (v : Word),
    csrRead (csrWrite s v .mstatus) .mstatus =
      (if v.extractLsb' 11 2 = 0b10#2 then (v &&& 0x7E01AA#64) ||| (csrRead s .mstatus &&& 0x1800#64)
        else v &&& 0x7E19AA#64) ||| 0xF00000000#64

/-- sstatus is a view of mstatus: it reads the bits of 0xC0122 and the constant bits 33:32, and a write of it changes
those five bits of mstatus and no others (R71). -/
def Obligations.SstatusIsAViewOfMstatus : Prop :=
  ∀ (s : State) (v : Word),
    csrRead s .sstatus = (csrRead s .mstatus &&& 0xC0122#64) ||| 0x300000000#64 ∧
    csrRead (csrWrite s v .sstatus) .mstatus = (csrRead s .mstatus &&& ~~~0xC0122#64) ||| (v &&& 0xC0122#64)

/-- mtvec, stvec: MODE 2 and 3 leave MODE as it was, BASE is written (D19). satp: a MODE other than 0 and 8 leaves it
as it was (D18), ASID reads 0. -/
def Obligations.VectorAndTranslationRegisterWrites : Prop :=
  ∀ (s : State) (v : Word),
    csrRead (csrWrite s v .mtvec) .mtvec =
      (if v.getLsbD 1 then (v &&& ~~~3#64) ||| (csrRead s .mtvec &&& 3#64) else v) ∧
    csrRead (csrWrite s v .stvec) .stvec =
      (if v.getLsbD 1 then (v &&& ~~~3#64) ||| (csrRead s .stvec &&& 3#64) else v) ∧
    csrRead (csrWrite s v .satp) .satp =
      (if v.extractLsb' 60 4 = 0#4 ∨ v.extractLsb' 60 4 = 8#4 then v &&& 0xF0000FFFFFFFFFFF#64
        else csrRead s .satp)

/-- The interrupt registers: mip takes bits 9, 5, 1 and reads bit 9 as the written bit or the external line; a write
never changes bits 11, 7, 3; MTIP is `mtime >= mtimecmp`; sie is mie's bits 9, 5, 1, read and written (D40);
sip is mip's bits 9, 5, 1, of which a write through sip changes only SSIP. -/
def Obligations.InterruptRegisterWrites : Prop :=
  ∀ (s : State) (v : Word),
    csrRead (csrWrite s v .mip) .mip =
      (v &&& 0x222#64) ||| (csrRead s .mip &&& 0x888#64) ||| (if s.extSei then 0x200#64 else 0#64) ∧
    (csrRead s .mip).getLsbD 7 = decide (s.mtimecmp.toNat ≤ s.mtime.toNat) ∧
    (csrRead s .mip).getLsbD 9 = (s.seipSw || s.extSei) ∧
    csrRead s .sie = csrRead s .mie &&& 0x222#64 ∧
    csrRead (csrWrite s v .sie) .mie = (csrRead s .mie &&& ~~~0x222#64) ||| (v &&& 0x222#64) ∧
    csrRead s .sip = csrRead s .mip &&& 0x222#64 ∧
    csrRead (csrWrite s v .sip) .mip = (csrRead s .mip &&& ~~~2#64) ||| (v &&& 2#64)

/-- A CSR write changes no CSR that does not show the same storage. -/
def Obligations.CsrWriteLeavesOtherCsrs : Prop :=
  ∀ (s : State) (v : Word) (c d : Csr), ¬Linked c d → csrRead (csrWrite s v c) d = csrRead s d

/-- The constants misa, mvendorid and mhartid, in every state and after every CSR write (R40, R41, R44). -/
def Obligations.IdentityCsrsAreConstant : Prop :=
  ∀ (s : State) (v : Word) (c : Csr),
    csrRead s .misa = 0x8000000000000101#64 ∧ csrRead s .mvendorid = 0#64 ∧ csrRead s .mhartid = 1#64 ∧
    csrRead (csrWrite s v c) .misa = 0x8000000000000101#64 ∧ csrRead (csrWrite s v c) .mvendorid = 0#64 ∧
    csrRead (csrWrite s v c) .mhartid = 1#64 ∧
    (s.priv = .M → csrCheck s 0x301#12 true = some .misa) ∧ csrWrite s v .misa = s ∧
    csrCheck s 0xF11#12 true = none ∧ csrCheck s 0xF14#12 true = none

/-- cycle and instret are copies of mcycle and minstret that every mode reads and none writes, whatever the
counter-enable registers hold (R82, R84). -/
def Obligations.CountersAreReadableCopies : Prop :=
  ∀ s : State,
    csrRead s .cycle = csrRead s .mcycle ∧ csrRead s .instret = csrRead s .minstret ∧
    csrCheck s 0xC00#12 false = some .cycle ∧ csrCheck s 0xC02#12 false = some .instret ∧
    csrCheck s 0xC00#12 true = none ∧ csrCheck s 0xC02#12 true = none

/-- The CSRs that no write reaches, and those that show the platform: hpmcounter3 and 4, mhpmcounter3 and 4,
mhpmevent3, sedeleg and sideleg read 0 and ignore writes (D22, D23), and no mode may write the first two; marchid and
mimpid are the board's constants (D25); time reads mtime, in every mode, and none writes it; mip shows the M-level
external line in bit 11 and `msip_reg` in bit 3. -/
def Obligations.HardwiredAndPlatformCsrs : Prop :=
  ∀ (s : State) (v : Word) (c : Csr),
    (c ∈ [.hpmcounter3, .hpmcounter4, .mhpmcounter3, .mhpmcounter4, .mhpmevent3, .sedeleg, .sideleg] →
      csrRead s c = 0#64 ∧ csrWrite s v c = s) ∧
    csrCheck s 0xC03#12 false = some .hpmcounter3 ∧ csrCheck s 0xC04#12 false = some .hpmcounter4 ∧
    csrCheck s 0xC03#12 true = none ∧ csrCheck s 0xC04#12 true = none ∧
    csrRead s .marchid = s.board.marchid ∧ csrRead s .mimpid = s.board.mimpid ∧
    csrRead (csrWrite s v c) .marchid = s.board.marchid ∧ csrRead (csrWrite s v c) .mimpid = s.board.mimpid ∧
    csrCheck s 0xF12#12 true = none ∧ csrCheck s 0xF13#12 true = none ∧
    csrRead s .time = s.mtime ∧ csrCheck s 0xC01#12 false = some .time ∧ csrCheck s 0xC01#12 true = none ∧
    (csrRead s .mip).getLsbD 11 = s.extMei ∧ (csrRead s .mip).getLsbD 3 = s.msip

/-! ## Traps (spec/60_exceptions.md) -/

/-- Taking a trap. Delegation picks the mode: M where the hart is in M mode or the cause is not delegated, else S.
The target mode's cause, saved pc, trap value, xPIE, xIE, xPP, the mode and the pc become what R430, R431 and R434 say,
and nothing else changes: no trap register of the other mode, no other field of mstatus, no general register, no
memory. -/
def Obligations.TakingATrap : Prop :=
  ∀ (s : State) (c : Cause) (epc tval : Word),
    ((s.priv = .M ∨ delegationBit s c = false) →
      (takeTrap s c epc tval).mcause.getLsbD 63 = c.isInterrupt ∧
      ((takeTrap s c epc tval).mcause.extractLsb' 0 63).toNat = c.code ∧
      (takeTrap s c epc tval).mepc = epc &&& ~~~3#64 ∧ (takeTrap s c epc tval).mtval = tval ∧
      (takeTrap s c epc tval).mstatus = { s.mstatus with mpie := s.mstatus.mie, mie := false, mpp := s.priv } ∧
      (takeTrap s c epc tval).priv = .M ∧ (takeTrap s c epc tval).pc = vectorTarget s.board s.mtvec c ∧
      (takeTrap s c epc tval).scause = s.scause ∧ (takeTrap s c epc tval).sepc = s.sepc ∧
      (takeTrap s c epc tval).stval = s.stval ∧ (takeTrap s c epc tval).minstret = s.minstret ∧
      SameRegs s (takeTrap s c epc tval) ∧ SameControl s (takeTrap s c epc tval) ∧
      SamePlatform s (takeTrap s c epc tval) ∧ SameHidden s (takeTrap s c epc tval) ∧
      SameMemory s (takeTrap s c epc tval)) ∧
    (s.priv ≠ .M → delegationBit s c = true →
      (takeTrap s c epc tval).scause.getLsbD 63 = c.isInterrupt ∧
      ((takeTrap s c epc tval).scause.extractLsb' 0 63).toNat = c.code ∧
      (takeTrap s c epc tval).sepc = epc &&& ~~~3#64 ∧ (takeTrap s c epc tval).stval = tval ∧
      (takeTrap s c epc tval).mstatus =
        { s.mstatus with spie := s.mstatus.sie, sie := false, spp := decide (s.priv = .S) } ∧
      (takeTrap s c epc tval).priv = .S ∧ (takeTrap s c epc tval).pc = vectorTarget s.board s.stvec c ∧
      (takeTrap s c epc tval).mcause = s.mcause ∧ (takeTrap s c epc tval).mepc = s.mepc ∧
      (takeTrap s c epc tval).mtval = s.mtval ∧ (takeTrap s c epc tval).minstret = s.minstret ∧
      SameRegs s (takeTrap s c epc tval) ∧ SameControl s (takeTrap s c epc tval) ∧
      SamePlatform s (takeTrap s c epc tval) ∧ SameHidden s (takeTrap s c epc tval) ∧
      SameMemory s (takeTrap s c epc tval))

/-- Where a trap goes: the base in direct mode; in vectored mode the base plus 4 times the code for interrupts, and for
exceptions where the board's parameter says so (D34), else the base; always a multiple of 4. -/
def Obligations.TrapVector : Prop :=
  ∀ (b : Board) (v : Tvec) (c : Cause),
    (v.value.getLsbD 0 = false → vectorTarget b v c = v.value &&& ~~~3#64) ∧
    (v.value.getLsbD 0 = true → (c.isInterrupt = true ∨ b.vectorExceptions = true) →
      vectorTarget b v c = (v.value &&& ~~~3#64) + 4#64 * BitVec.ofNat 64 c.code) ∧
    (c.isInterrupt = false → b.vectorExceptions = false → vectorTarget b v c = v.value &&& ~~~3#64) ∧
    (vectorTarget b v c).toNat % 4 = 0

/-! ## Privilege (spec/60_exceptions.md section 7) -/

/-- The only ways a step changes the mode: upward or sideways by a trap; downward or sideways by an MRET, to the mode
of MPP, or an SRET, to the mode of SPP. A delegated ECALL of S mode stays in S mode. Reset sets the mode to M (R452). -/
def Obligations.OnlyTrapsAndReturnsChangeTheMode : Prop :=
  (∀ s t : State, step s = .next t →
    t.priv = s.priv ∨
    (s.priv.level ≤ t.priv.level ∧ ∃ u c epc tval, u.priv = s.priv ∧ t = (takeTrap u c epc tval).elapse) ∨
    (t.priv.level ≤ s.priv.level ∧ ∃ u w, fetchWord s s.pc = .ok (w, u) ∧
      ((decodeWord w = .ok .mret ∧ t.priv = u.mstatus.mpp) ∨
       (decodeWord w = .ok .sret ∧ t.priv = if u.mstatus.spp then .S else .U)))) ∧
  (∀ s t : State, s.priv = .S → (csrRead s .medeleg).getLsbD 9 = true → exec .ecall s = .next t → t.priv = .S) ∧
  ∀ b : Board, (State.resetOn b).priv = .M

/-- An instruction executed in U mode either traps or leaves the mode and every CSR as it was, the external lines that
mip and sip show and the board's constants with them, but for minstret and its copy instret, which count, and for time
and the bits MTIP and MSIP of mip, which show platform registers that a store of any mode may reach (R86, R457). -/
def Obligations.UserModeLeavesTheSystemAlone : Prop :=
  ∀ (i : Instr) (s t : State), s.priv = .U → exec i s = .next t →
    (∃ e epc tval, t = takeTrap s (.exc e) epc tval) ∨ (SameSystem s t ∧ SameLines s t)

/-- An instruction executed in S mode either traps or leaves M mode's own state as it was: its trap, vector,
delegation, scratch and counter-control registers, the M-level bits of mie, the stored bits STIP and SEIP of mip, and
the fields of mstatus that sstatus does not show. (The bits MTIP and MSIP of mip show platform registers, which a
store may reach.) -/
def Obligations.SupervisorModeLeavesMachineStateAlone : Prop :=
  ∀ (i : Instr) (s t : State), s.priv = .S → exec i s = .next t →
    (∃ e epc tval, t = takeTrap s (.exc e) epc tval) ∨
    (t.mepc = s.mepc ∧ t.mcause = s.mcause ∧ t.mtval = s.mtval ∧ t.mtvec = s.mtvec ∧ t.medeleg = s.medeleg ∧
      t.mideleg = s.mideleg ∧ t.mscratch = s.mscratch ∧ t.mcounteren = s.mcounteren ∧
      t.mcountinhibit = s.mcountinhibit ∧ t.mcycle = s.mcycle ∧ t.stip = s.stip ∧ t.seipSw = s.seipSw ∧
      t.mie &&& 0x888#64 = s.mie &&& 0x888#64 ∧
      csrRead t .mstatus &&& 0x721888#64 = csrRead s .mstatus &&& 0x721888#64)

/-! ## Address translation (spec/20_memory.md section 3) -/

/-- Translation is active iff satp.MODE is 8 and the privilege is S or U; else the physical address is the virtual one
and no page permission is checked (R140). Data accesses use MPP while MPRV is 1 and the mode otherwise; a fetch uses
the mode and does not depend on MPRV or MPP (R127). -/
def Obligations.TranslationIsActiveOnlyBelowMachineMode : Prop :=
  ∀ (s : State) (va : Word) (t : Access) (p : Priv),
    (translated s p = true ↔ (csrRead s .satp).extractLsb' 60 4 = 8#4 ∧ (p = .S ∨ p = .U)) ∧
    (translated s p = false → translateVa s va t p = .ok { pa := va, update := none }) ∧
    s.dataPriv = (if (csrRead s .mstatus).getLsbD 17 then s.mstatus.mpp else s.priv) ∧
    ∀ (b : Bool) (m : Priv),
      (fetchWord { s with mstatus := { s.mstatus with mprv := b, mpp := m } } va).map Prod.fst =
        (fetchWord s va).map Prod.fst

/-- The permission of a leaf entry (section 3; the U-mode and fetch rows are D30). -/
def Obligations.PagePermissions : Prop :=
  ∀ (st : Mstatus) (pte : Word) (p : Priv),
    (permitted st pte .fetch p = true ↔
      pte.getLsbD 3 = true ∧ ((p = .U ∧ pte.getLsbD 4 = true) ∨ (p = .S ∧ pte.getLsbD 4 = false))) ∧
    (permitted st pte .load p = true ↔
      (pte.getLsbD 1 = true ∨ (st.mxr = true ∧ pte.getLsbD 3 = true)) ∧
      ((p = .U ∧ pte.getLsbD 4 = true) ∨ (p = .S ∧ (pte.getLsbD 4 = false ∨ st.sum = true)))) ∧
    (permitted st pte .store p = true ↔
      pte.getLsbD 2 = true ∧
      ((p = .U ∧ pte.getLsbD 4 = true) ∨ (p = .S ∧ (pte.getLsbD 4 = false ∨ st.sum = true))))

/-- The walk finds a leaf at level 2, 1 or 0: the physical address is the arithmetic of section 3, and the entry is
due to be written where A, or D on a store, is not set (that the entry is checked as an 8-byte load, and as an 8-byte
store where it is due to be written, is log 19). -/
def Obligations.PageWalkTranslates : Prop :=
  ∀ (s : State) (va : Word) (t : Access) (p : Priv) (l2 l1 l0 : Word),
    translated s p = true → va = (va.extractLsb' 0 39).signExtend 64 → TlbClean s →
    EntryIs s (pageAddress s.satp.ppn) va 2 l2 →
    (LeafOk s (pteAddress (pageAddress s.satp.ppn) va 2) l2 t p → (l2.extractLsb' 10 18) = 0#18 →
      translateVa s va t p = .ok (leafTranslation (pteAddress (pageAddress s.satp.ppn) va 2) l2
        ((l2.extractLsb' 28 26 ++ va.extractLsb' 0 30 : BitVec 56).setWidth 64) t)) ∧
    (IsPointer l2 → EntryIs s (pageAddress (ptePpn l2)) va 1 l1 →
      (LeafOk s (pteAddress (pageAddress (ptePpn l2)) va 1) l1 t p → (l1.extractLsb' 10 9) = 0#9 →
        translateVa s va t p = .ok (leafTranslation (pteAddress (pageAddress (ptePpn l2)) va 1) l1
          ((l1.extractLsb' 19 35 ++ va.extractLsb' 0 21 : BitVec 56).setWidth 64) t)) ∧
      (IsPointer l1 → EntryIs s (pageAddress (ptePpn l1)) va 0 l0 →
        LeafOk s (pteAddress (pageAddress (ptePpn l1)) va 0) l0 t p →
        translateVa s va t p = .ok (leafTranslation (pteAddress (pageAddress (ptePpn l1)) va 0) l0
          ((l0.extractLsb' 10 44 ++ va.extractLsb' 0 12 : BitVec 56).setWidth 64) t)))

/-- What makes the walk page-fault, with the code of the access (12, 13 or 15): an address that is not sign-extended
from bit 38 (D29); at level 2, 1 or 0, an entry with V = 0, or W without R, or a leaf the access is not permitted, or
a superpage whose low page-number bits are not 0, or a pointer at level 0. At each level an entry that cannot be read,
or in which A or D must be set and that cannot be written, raises the access fault of the access (D31; that the entry
is checked as an 8-byte load and an 8-byte store is log 19, DEDUCED). -/
def Obligations.PageWalkFaults : Prop :=
  ∀ (s : State) (va : Word) (t : Access) (p : Priv), translated s p = true →
    (va ≠ (va.extractLsb' 0 39).signExtend 64 → translateVa s va t p = .error (pageFaultExc t)) ∧
    (va = (va.extractLsb' 0 39).signExtend 64 → TlbClean s →
      WalkEndsAt s va t p 2 (pageAddress s.satp.ppn) ∧
      ∀ l2, EntryIs s (pageAddress s.satp.ppn) va 2 l2 → IsPointer l2 →
        WalkEndsAt s va t p 1 (pageAddress (ptePpn l2)) ∧
        ∀ l1, EntryIs s (pageAddress (ptePpn l2)) va 1 l1 → IsPointer l1 →
          WalkEndsAt s va t p 0 (pageAddress (ptePpn l1))) ∧
    (pageFaultExc .fetch).code = 12 ∧ (pageFaultExc .load).code = 13 ∧ (pageFaultExc .store).code = 15 ∧
    (accessFaultExc .fetch).code = 1 ∧ (accessFaultExc .load).code = 5 ∧ (accessFaultExc .store).code = 7

/-! ## The platform and time (spec/10_state.md R61, R86; spec/60_exceptions.md section 8) -/

/-- A doubleword access at the address of mtime or mtimecmp reads and writes that register, and a word access at the
address of the software-interrupt controller reads `msip_reg` in its bit and writes it; no memory changes. So do LD
and SD, LW, LWU and SW whose access reaches those physical addresses and sets no A or D bit (that mtime and mtimecmp
are eight bytes at those addresses and msip one bit of a word is D26; the shapes of the accesses are log 13). -/
def Obligations.DeviceRegistersAnswer : Prop :=
  ∀ (s : State) (v pa : Word) (site : Site), s.board.wellFormed = true →
    (pa.toNat = s.board.mtimeAddr → physRead s pa 8 site = s.mtime ∧
      (physWrite s pa 8 v).mtime = v ∧ (physWrite s pa 8 v).mem = s.mem ∧
      (physWrite s pa 8 v).mtimecmp = s.mtimecmp) ∧
    (pa.toNat = s.board.mtimecmpAddr → physRead s pa 8 site = s.mtimecmp ∧
      (physWrite s pa 8 v).mtimecmp = v ∧ (physWrite s pa 8 v).mem = s.mem ∧
      (csrRead (physWrite s pa 8 v) .mip).getLsbD 7 = decide (v.toNat ≤ s.mtime.toNat)) ∧
    (pa.toNat = s.board.msipAddr → (physRead s pa 4 site).getLsbD s.board.msipBit = s.msip ∧
      (csrRead (physWrite s pa 4 v) .mip).getLsbD 3 = v.getLsbD s.board.msipBit ∧
      (physWrite s pa 4 v).mem = s.mem) ∧
    ∀ (rd rs1 rs2 : Reg) (imm : BitVec 12) (va : Word), va = s.reg rs1 + imm.signExtend 64 →
      (pa.toNat = s.board.mtimeAddr →
        (DataOk s va .load 8 { pa := pa, update := none } → Writes s (exec (.ld rd rs1 imm) s) rd s.mtime) ∧
        (DataOk s va .store 8 { pa := pa, update := none } →
          StoresToDevice s (exec (.sd rs1 rs2 imm) s) (s.reg rs2) s.mtimecmp s.msip)) ∧
      (pa.toNat = s.board.mtimecmpAddr →
        (DataOk s va .load 8 { pa := pa, update := none } → Writes s (exec (.ld rd rs1 imm) s) rd s.mtimecmp) ∧
        (DataOk s va .store 8 { pa := pa, update := none } →
          StoresToDevice s (exec (.sd rs1 rs2 imm) s) s.mtime (s.reg rs2) s.msip)) ∧
      (pa.toNat = s.board.msipAddr →
        (DataOk s va .load 4 { pa := pa, update := none } →
          ∃ w : BitVec 32, w.getLsbD s.board.msipBit = s.msip ∧
            Writes s (exec (.lw rd rs1 imm) s) rd (w.signExtend 64) ∧
            Writes s (exec (.lwu rd rs1 imm) s) rd (w.setWidth 64)) ∧
        (DataOk s va .store 4 { pa := pa, update := none } →
          StoresToDevice s (exec (.sw rs1 rs2 imm) s) s.mtime s.mtimecmp ((s.reg rs2).getLsbD s.board.msipBit)))

/-- No byte at or above 2^56 exists: an access that reaches one is not accessible, and an untranslated load or store
there, here LD and SD, traps with code 5 or 7. -/
def Obligations.NoPhysicalAddressAboveTheSpace : Prop :=
  ∀ (s : State) (va : Word) (n : Nat) (t : Access), 2 ^ 56 < va.toNat + n →
    physAccessible s.board va n t = false ∧
    ∀ (rd rs1 rs2 : Reg) (imm : BitVec 12), n = 8 → va = s.reg rs1 + imm.signExtend 64 → va.toNat % 8 = 0 →
      translated s s.dataPriv = false →
      Traps s (exec (.ld rd rs1 imm) s) .loadAccessFault s.pc va ∧
      Traps s (exec (.sd rs1 rs2 imm) s) .storeAccessFault s.pc va

/-- Between two steps mtime stays or increases, mcycle stands still while it is inhibited, the S-level line stays low
until the interrupt controller is programmed, and no register, pc, mode, memory, cache, other CSR's storage, platform
register or board parameter changes: only mtime, mcycle, the two external lines and the step counter move (that the
amounts are free is D38; log 12, log 16). -/
def Obligations.TimeBetweenSteps : Prop :=
  ∀ s : State,
    s.mtime.toNat ≤ s.elapse.mtime.toNat ∧
    ((csrRead s .mcountinhibit).getLsbD 0 = true → s.elapse.mcycle = s.mcycle) ∧
    (s.plicProgrammed = false → s.elapse.extSei = false) ∧
    SameRegs s s.elapse ∧ s.elapse.pc = s.pc ∧ SameMode s s.elapse ∧ SameTrapRegs s s.elapse ∧
    SameControl s { s.elapse with mcycle := s.mcycle } ∧ s.elapse.minstret = s.minstret ∧
    s.elapse.mtimecmp = s.mtimecmp ∧ s.elapse.msip = s.msip ∧ s.elapse.plicProgrammed = s.plicProgrammed ∧
    s.elapse.board = s.board ∧ SameMemory s s.elapse ∧ SameHidden s s.elapse
end

