-- ==== Sys2Proof/Laws/State.lean ====
section
/-! SUPPORT. The small lemmas of the state updates: what each field is after each update. -/

namespace Sys2Proof.Machine

/-! ## `setReg` -/

@[simp] theorem State.setReg_regs (s : State) (r : Reg) (v : Word) : (s.setReg r v).regs = writeRegs s.regs r v := rfl
@[simp] theorem State.setReg_pc (s : State) (r : Reg) (v : Word) : (s.setReg r v).pc = s.pc := rfl
@[simp] theorem State.setReg_priv (s : State) (r : Reg) (v : Word) : (s.setReg r v).priv = s.priv := rfl
@[simp] theorem State.setReg_mstatus (s : State) (r : Reg) (v : Word) : (s.setReg r v).mstatus = s.mstatus := rfl
@[simp] theorem State.setReg_mtvec (s : State) (r : Reg) (v : Word) : (s.setReg r v).mtvec = s.mtvec := rfl
@[simp] theorem State.setReg_stvec (s : State) (r : Reg) (v : Word) : (s.setReg r v).stvec = s.stvec := rfl
@[simp] theorem State.setReg_medeleg (s : State) (r : Reg) (v : Word) : (s.setReg r v).medeleg = s.medeleg := rfl
@[simp] theorem State.setReg_mideleg (s : State) (r : Reg) (v : Word) : (s.setReg r v).mideleg = s.mideleg := rfl
@[simp] theorem State.setReg_mie (s : State) (r : Reg) (v : Word) : (s.setReg r v).mie = s.mie := rfl
@[simp] theorem State.setReg_ssip (s : State) (r : Reg) (v : Word) : (s.setReg r v).ssip = s.ssip := rfl
@[simp] theorem State.setReg_stip (s : State) (r : Reg) (v : Word) : (s.setReg r v).stip = s.stip := rfl
@[simp] theorem State.setReg_seipSw (s : State) (r : Reg) (v : Word) : (s.setReg r v).seipSw = s.seipSw := rfl
@[simp] theorem State.setReg_mscratch (s : State) (r : Reg) (v : Word) : (s.setReg r v).mscratch = s.mscratch := rfl
@[simp] theorem State.setReg_mepc (s : State) (r : Reg) (v : Word) : (s.setReg r v).mepc = s.mepc := rfl
@[simp] theorem State.setReg_mcause (s : State) (r : Reg) (v : Word) : (s.setReg r v).mcause = s.mcause := rfl
@[simp] theorem State.setReg_mtval (s : State) (r : Reg) (v : Word) : (s.setReg r v).mtval = s.mtval := rfl
@[simp] theorem State.setReg_mcounteren (s : State) (r : Reg) (v : Word) :
    (s.setReg r v).mcounteren =
      s.mcounteren := rfl
@[simp] theorem State.setReg_scounteren (s : State) (r : Reg) (v : Word) :
    (s.setReg r v).scounteren =
      s.scounteren := rfl
@[simp] theorem State.setReg_mcountinhibit (s : State) (r : Reg) (v : Word) :
    (s.setReg r v).mcountinhibit =
      s.mcountinhibit := rfl
@[simp] theorem State.setReg_mcycle (s : State) (r : Reg) (v : Word) : (s.setReg r v).mcycle = s.mcycle := rfl
@[simp] theorem State.setReg_minstret (s : State) (r : Reg) (v : Word) : (s.setReg r v).minstret = s.minstret := rfl
@[simp] theorem State.setReg_sscratch (s : State) (r : Reg) (v : Word) : (s.setReg r v).sscratch = s.sscratch := rfl
@[simp] theorem State.setReg_sepc (s : State) (r : Reg) (v : Word) : (s.setReg r v).sepc = s.sepc := rfl
@[simp] theorem State.setReg_scause (s : State) (r : Reg) (v : Word) : (s.setReg r v).scause = s.scause := rfl
@[simp] theorem State.setReg_stval (s : State) (r : Reg) (v : Word) : (s.setReg r v).stval = s.stval := rfl
@[simp] theorem State.setReg_satp (s : State) (r : Reg) (v : Word) : (s.setReg r v).satp = s.satp := rfl
@[simp] theorem State.setReg_mtime (s : State) (r : Reg) (v : Word) : (s.setReg r v).mtime = s.mtime := rfl
@[simp] theorem State.setReg_mtimecmp (s : State) (r : Reg) (v : Word) : (s.setReg r v).mtimecmp = s.mtimecmp := rfl
@[simp] theorem State.setReg_msip (s : State) (r : Reg) (v : Word) : (s.setReg r v).msip = s.msip := rfl
@[simp] theorem State.setReg_extMei (s : State) (r : Reg) (v : Word) : (s.setReg r v).extMei = s.extMei := rfl
@[simp] theorem State.setReg_extSei (s : State) (r : Reg) (v : Word) : (s.setReg r v).extSei = s.extSei := rfl
@[simp] theorem State.setReg_plicProgrammed (s : State) (r : Reg) (v : Word) :
    (s.setReg r v).plicProgrammed =
      s.plicProgrammed := rfl
@[simp] theorem State.setReg_mem (s : State) (r : Reg) (v : Word) : (s.setReg r v).mem = s.mem := rfl
@[simp] theorem State.setReg_codeHistory (s : State) (r : Reg) (v : Word) :
    (s.setReg r v).codeHistory =
      s.codeHistory := rfl
@[simp] theorem State.setReg_pteHistory (s : State) (r : Reg) (v : Word) :
    (s.setReg r v).pteHistory =
      s.pteHistory := rfl
@[simp] theorem State.setReg_rootHistory (s : State) (r : Reg) (v : Word) :
    (s.setReg r v).rootHistory =
      s.rootHistory := rfl
@[simp] theorem State.setReg_tick (s : State) (r : Reg) (v : Word) : (s.setReg r v).tick = s.tick := rfl
@[simp] theorem State.setReg_board (s : State) (r : Reg) (v : Word) : (s.setReg r v).board = s.board := rfl

/-! ## `retire` -/

@[simp] theorem State.retire_regs (s : State) (n : Word) : (s.retire n).regs = s.regs := rfl
@[simp] theorem State.retire_pc (s : State) (n : Word) : (s.retire n).pc = n := rfl
@[simp] theorem State.retire_priv (s : State) (n : Word) : (s.retire n).priv = s.priv := rfl
@[simp] theorem State.retire_mstatus (s : State) (n : Word) : (s.retire n).mstatus = s.mstatus := rfl
@[simp] theorem State.retire_mtvec (s : State) (n : Word) : (s.retire n).mtvec = s.mtvec := rfl
@[simp] theorem State.retire_stvec (s : State) (n : Word) : (s.retire n).stvec = s.stvec := rfl
@[simp] theorem State.retire_medeleg (s : State) (n : Word) : (s.retire n).medeleg = s.medeleg := rfl
@[simp] theorem State.retire_mideleg (s : State) (n : Word) : (s.retire n).mideleg = s.mideleg := rfl
@[simp] theorem State.retire_mie (s : State) (n : Word) : (s.retire n).mie = s.mie := rfl
@[simp] theorem State.retire_ssip (s : State) (n : Word) : (s.retire n).ssip = s.ssip := rfl
@[simp] theorem State.retire_stip (s : State) (n : Word) : (s.retire n).stip = s.stip := rfl
@[simp] theorem State.retire_seipSw (s : State) (n : Word) : (s.retire n).seipSw = s.seipSw := rfl
@[simp] theorem State.retire_mscratch (s : State) (n : Word) : (s.retire n).mscratch = s.mscratch := rfl
@[simp] theorem State.retire_mepc (s : State) (n : Word) : (s.retire n).mepc = s.mepc := rfl
@[simp] theorem State.retire_mcause (s : State) (n : Word) : (s.retire n).mcause = s.mcause := rfl
@[simp] theorem State.retire_mtval (s : State) (n : Word) : (s.retire n).mtval = s.mtval := rfl
@[simp] theorem State.retire_mcounteren (s : State) (n : Word) : (s.retire n).mcounteren = s.mcounteren := rfl
@[simp] theorem State.retire_scounteren (s : State) (n : Word) : (s.retire n).scounteren = s.scounteren := rfl
@[simp] theorem State.retire_mcountinhibit (s : State) (n : Word) :
    (s.retire n).mcountinhibit =
      s.mcountinhibit := rfl
@[simp] theorem State.retire_mcycle (s : State) (n : Word) : (s.retire n).mcycle = s.mcycle := rfl
@[simp] theorem State.retire_minstret (s : State) (n : Word) : (s.retire n).minstret = countedInstret s := rfl
@[simp] theorem State.retire_sscratch (s : State) (n : Word) : (s.retire n).sscratch = s.sscratch := rfl
@[simp] theorem State.retire_sepc (s : State) (n : Word) : (s.retire n).sepc = s.sepc := rfl
@[simp] theorem State.retire_scause (s : State) (n : Word) : (s.retire n).scause = s.scause := rfl
@[simp] theorem State.retire_stval (s : State) (n : Word) : (s.retire n).stval = s.stval := rfl
@[simp] theorem State.retire_satp (s : State) (n : Word) : (s.retire n).satp = s.satp := rfl
@[simp] theorem State.retire_mtime (s : State) (n : Word) : (s.retire n).mtime = s.mtime := rfl
@[simp] theorem State.retire_mtimecmp (s : State) (n : Word) : (s.retire n).mtimecmp = s.mtimecmp := rfl
@[simp] theorem State.retire_msip (s : State) (n : Word) : (s.retire n).msip = s.msip := rfl
@[simp] theorem State.retire_extMei (s : State) (n : Word) : (s.retire n).extMei = s.extMei := rfl
@[simp] theorem State.retire_extSei (s : State) (n : Word) : (s.retire n).extSei = s.extSei := rfl
@[simp] theorem State.retire_plicProgrammed (s : State) (n : Word) :
    (s.retire n).plicProgrammed =
      s.plicProgrammed := rfl
@[simp] theorem State.retire_mem (s : State) (n : Word) : (s.retire n).mem = s.mem := rfl
@[simp] theorem State.retire_codeHistory (s : State) (n : Word) : (s.retire n).codeHistory = s.codeHistory := rfl
@[simp] theorem State.retire_pteHistory (s : State) (n : Word) : (s.retire n).pteHistory = s.pteHistory := rfl
@[simp] theorem State.retire_rootHistory (s : State) (n : Word) : (s.retire n).rootHistory = s.rootHistory := rfl
@[simp] theorem State.retire_tick (s : State) (n : Word) : (s.retire n).tick = s.tick := rfl
@[simp] theorem State.retire_board (s : State) (n : Word) : (s.retire n).board = s.board := rfl

/-! ## `takeTrap` -/

@[simp] theorem State.takeTrap_regs (s : State) (c : Cause) (e v : Word) : (takeTrap s c e v).regs = s.regs := rfl
@[simp] theorem State.takeTrap_pc (s : State) (c : Cause) (e v : Word) :
    (takeTrap s c e v).pc =
      vectorTarget s.board (if trapToS s c then s.stvec else s.mtvec) c := rfl
@[simp] theorem State.takeTrap_priv (s : State) (c : Cause) (e v : Word) :
    (takeTrap s c e v).priv =
      if trapToS s c then .S else .M := rfl
@[simp] theorem State.takeTrap_mstatus (s : State) (c : Cause) (e v : Word) :
    (takeTrap s c e v).mstatus =
      if trapToS s c then s.mstatus.enterS s.priv else s.mstatus.enterM s.priv := rfl
@[simp] theorem State.takeTrap_mtvec (s : State) (c : Cause) (e v : Word) : (takeTrap s c e v).mtvec = s.mtvec := rfl
@[simp] theorem State.takeTrap_stvec (s : State) (c : Cause) (e v : Word) : (takeTrap s c e v).stvec = s.stvec := rfl
@[simp] theorem State.takeTrap_medeleg (s : State) (c : Cause) (e v : Word) :
    (takeTrap s c e v).medeleg =
      s.medeleg := rfl
@[simp] theorem State.takeTrap_mideleg (s : State) (c : Cause) (e v : Word) :
    (takeTrap s c e v).mideleg =
      s.mideleg := rfl
@[simp] theorem State.takeTrap_mie (s : State) (c : Cause) (e v : Word) : (takeTrap s c e v).mie = s.mie := rfl
@[simp] theorem State.takeTrap_ssip (s : State) (c : Cause) (e v : Word) : (takeTrap s c e v).ssip = s.ssip := rfl
@[simp] theorem State.takeTrap_stip (s : State) (c : Cause) (e v : Word) : (takeTrap s c e v).stip = s.stip := rfl
@[simp] theorem State.takeTrap_seipSw (s : State) (c : Cause) (e v : Word) :
    (takeTrap s c e v).seipSw =
      s.seipSw := rfl
@[simp] theorem State.takeTrap_mscratch (s : State) (c : Cause) (e v : Word) :
    (takeTrap s c e v).mscratch =
      s.mscratch := rfl
@[simp] theorem State.takeTrap_mepc (s : State) (c : Cause) (e v : Word) :
    (takeTrap s c e v).mepc =
      if trapToS s c then s.mepc else epcValue e := rfl
@[simp] theorem State.takeTrap_mcause (s : State) (c : Cause) (e v : Word) :
    (takeTrap s c e v).mcause =
      if trapToS s c then s.mcause else c.word := rfl
@[simp] theorem State.takeTrap_mtval (s : State) (c : Cause) (e v : Word) :
    (takeTrap s c e v).mtval =
      if trapToS s c then s.mtval else v := rfl
@[simp] theorem State.takeTrap_mcounteren (s : State) (c : Cause) (e v : Word) :
    (takeTrap s c e v).mcounteren =
      s.mcounteren := rfl
@[simp] theorem State.takeTrap_scounteren (s : State) (c : Cause) (e v : Word) :
    (takeTrap s c e v).scounteren =
      s.scounteren := rfl
@[simp] theorem State.takeTrap_mcountinhibit (s : State) (c : Cause) (e v : Word) :
    (takeTrap s c e v).mcountinhibit =
      s.mcountinhibit := rfl
@[simp] theorem State.takeTrap_mcycle (s : State) (c : Cause) (e v : Word) :
    (takeTrap s c e v).mcycle =
      s.mcycle := rfl
@[simp] theorem State.takeTrap_minstret (s : State) (c : Cause) (e v : Word) :
    (takeTrap s c e v).minstret =
      s.minstret := rfl
@[simp] theorem State.takeTrap_sscratch (s : State) (c : Cause) (e v : Word) :
    (takeTrap s c e v).sscratch =
      s.sscratch := rfl
@[simp] theorem State.takeTrap_sepc (s : State) (c : Cause) (e v : Word) :
    (takeTrap s c e v).sepc =
      if trapToS s c then epcValue e else s.sepc := rfl
@[simp] theorem State.takeTrap_scause (s : State) (c : Cause) (e v : Word) :
    (takeTrap s c e v).scause =
      if trapToS s c then c.word else s.scause := rfl
@[simp] theorem State.takeTrap_stval (s : State) (c : Cause) (e v : Word) :
    (takeTrap s c e v).stval =
      if trapToS s c then v else s.stval := rfl
@[simp] theorem State.takeTrap_satp (s : State) (c : Cause) (e v : Word) : (takeTrap s c e v).satp = s.satp := rfl
@[simp] theorem State.takeTrap_mtime (s : State) (c : Cause) (e v : Word) : (takeTrap s c e v).mtime = s.mtime := rfl
@[simp] theorem State.takeTrap_mtimecmp (s : State) (c : Cause) (e v : Word) :
    (takeTrap s c e v).mtimecmp =
      s.mtimecmp := rfl
@[simp] theorem State.takeTrap_msip (s : State) (c : Cause) (e v : Word) : (takeTrap s c e v).msip = s.msip := rfl
@[simp] theorem State.takeTrap_extMei (s : State) (c : Cause) (e v : Word) :
    (takeTrap s c e v).extMei =
      s.extMei := rfl
@[simp] theorem State.takeTrap_extSei (s : State) (c : Cause) (e v : Word) :
    (takeTrap s c e v).extSei =
      s.extSei := rfl
@[simp] theorem State.takeTrap_plicProgrammed (s : State) (c : Cause) (e v : Word) :
    (takeTrap s c e v).plicProgrammed =
      s.plicProgrammed := rfl
@[simp] theorem State.takeTrap_mem (s : State) (c : Cause) (e v : Word) : (takeTrap s c e v).mem = s.mem := rfl
@[simp] theorem State.takeTrap_codeHistory (s : State) (c : Cause) (e v : Word) :
    (takeTrap s c e v).codeHistory =
      s.codeHistory := rfl
@[simp] theorem State.takeTrap_pteHistory (s : State) (c : Cause) (e v : Word) :
    (takeTrap s c e v).pteHistory =
      s.pteHistory := rfl
@[simp] theorem State.takeTrap_rootHistory (s : State) (c : Cause) (e v : Word) :
    (takeTrap s c e v).rootHistory =
      s.rootHistory := rfl
@[simp] theorem State.takeTrap_tick (s : State) (c : Cause) (e v : Word) : (takeTrap s c e v).tick = s.tick := rfl
@[simp] theorem State.takeTrap_board (s : State) (c : Cause) (e v : Word) : (takeTrap s c e v).board = s.board := rfl

/-! ## `elapse` -/

@[simp] theorem State.elapse_regs (s : State) : s.elapse.regs = s.regs := rfl
@[simp] theorem State.elapse_pc (s : State) : s.elapse.pc = s.pc := rfl
@[simp] theorem State.elapse_priv (s : State) : s.elapse.priv = s.priv := rfl
@[simp] theorem State.elapse_mstatus (s : State) : s.elapse.mstatus = s.mstatus := rfl
@[simp] theorem State.elapse_mtvec (s : State) : s.elapse.mtvec = s.mtvec := rfl
@[simp] theorem State.elapse_stvec (s : State) : s.elapse.stvec = s.stvec := rfl
@[simp] theorem State.elapse_medeleg (s : State) : s.elapse.medeleg = s.medeleg := rfl
@[simp] theorem State.elapse_mideleg (s : State) : s.elapse.mideleg = s.mideleg := rfl
@[simp] theorem State.elapse_mie (s : State) : s.elapse.mie = s.mie := rfl
@[simp] theorem State.elapse_ssip (s : State) : s.elapse.ssip = s.ssip := rfl
@[simp] theorem State.elapse_stip (s : State) : s.elapse.stip = s.stip := rfl
@[simp] theorem State.elapse_seipSw (s : State) : s.elapse.seipSw = s.seipSw := rfl
@[simp] theorem State.elapse_mscratch (s : State) : s.elapse.mscratch = s.mscratch := rfl
@[simp] theorem State.elapse_mepc (s : State) : s.elapse.mepc = s.mepc := rfl
@[simp] theorem State.elapse_mcause (s : State) : s.elapse.mcause = s.mcause := rfl
@[simp] theorem State.elapse_mtval (s : State) : s.elapse.mtval = s.mtval := rfl
@[simp] theorem State.elapse_mcounteren (s : State) : s.elapse.mcounteren = s.mcounteren := rfl
@[simp] theorem State.elapse_scounteren (s : State) : s.elapse.scounteren = s.scounteren := rfl
@[simp] theorem State.elapse_mcountinhibit (s : State) : s.elapse.mcountinhibit = s.mcountinhibit := rfl
@[simp] theorem State.elapse_mcycle (s : State) :
    s.elapse.mcycle =
      if s.mcountinhibit.getLsbD 0 then s.mcycle else s.mcycle + BitVec.ofNat 64 (Config.cyclesElapsed s.tick) := rfl
@[simp] theorem State.elapse_minstret (s : State) : s.elapse.minstret = s.minstret := rfl
@[simp] theorem State.elapse_sscratch (s : State) : s.elapse.sscratch = s.sscratch := rfl
@[simp] theorem State.elapse_sepc (s : State) : s.elapse.sepc = s.sepc := rfl
@[simp] theorem State.elapse_scause (s : State) : s.elapse.scause = s.scause := rfl
@[simp] theorem State.elapse_stval (s : State) : s.elapse.stval = s.stval := rfl
@[simp] theorem State.elapse_satp (s : State) : s.elapse.satp = s.satp := rfl
@[simp] theorem State.elapse_mtime (s : State) :
    s.elapse.mtime =
      advanceNoWrap s.mtime (Config.mtimeTicks s.tick) := rfl
@[simp] theorem State.elapse_mtimecmp (s : State) : s.elapse.mtimecmp = s.mtimecmp := rfl
@[simp] theorem State.elapse_msip (s : State) : s.elapse.msip = s.msip := rfl
@[simp] theorem State.elapse_extMei (s : State) : s.elapse.extMei = Config.extMeiLine s.tick := rfl
@[simp] theorem State.elapse_extSei (s : State) :
    s.elapse.extSei =
      (s.plicProgrammed && Config.extSeiLine s.tick) := rfl
@[simp] theorem State.elapse_plicProgrammed (s : State) : s.elapse.plicProgrammed = s.plicProgrammed := rfl
@[simp] theorem State.elapse_mem (s : State) : s.elapse.mem = s.mem := rfl
@[simp] theorem State.elapse_codeHistory (s : State) : s.elapse.codeHistory = s.codeHistory := rfl
@[simp] theorem State.elapse_pteHistory (s : State) : s.elapse.pteHistory = s.pteHistory := rfl
@[simp] theorem State.elapse_rootHistory (s : State) : s.elapse.rootHistory = s.rootHistory := rfl
@[simp] theorem State.elapse_tick (s : State) : s.elapse.tick = s.tick + 1 := rfl
@[simp] theorem State.elapse_board (s : State) : s.elapse.board = s.board := rfl

/-! ## `returnM` -/

@[simp] theorem State.returnM_regs (s : State) : (returnM s).regs = s.regs := rfl
@[simp] theorem State.returnM_pc (s : State) : (returnM s).pc = epcValue s.mepc := rfl
@[simp] theorem State.returnM_priv (s : State) : (returnM s).priv = s.mstatus.mpp := rfl
@[simp] theorem State.returnM_mstatus (s : State) :
    (returnM s).mstatus =
      { s.mstatus with mie := s.mstatus.mpie, mpie := true, mpp := .U } := rfl
@[simp] theorem State.returnM_mtvec (s : State) : (returnM s).mtvec = s.mtvec := rfl
@[simp] theorem State.returnM_stvec (s : State) : (returnM s).stvec = s.stvec := rfl
@[simp] theorem State.returnM_medeleg (s : State) : (returnM s).medeleg = s.medeleg := rfl
@[simp] theorem State.returnM_mideleg (s : State) : (returnM s).mideleg = s.mideleg := rfl
@[simp] theorem State.returnM_mie (s : State) : (returnM s).mie = s.mie := rfl
@[simp] theorem State.returnM_ssip (s : State) : (returnM s).ssip = s.ssip := rfl
@[simp] theorem State.returnM_stip (s : State) : (returnM s).stip = s.stip := rfl
@[simp] theorem State.returnM_seipSw (s : State) : (returnM s).seipSw = s.seipSw := rfl
@[simp] theorem State.returnM_mscratch (s : State) : (returnM s).mscratch = s.mscratch := rfl
@[simp] theorem State.returnM_mepc (s : State) : (returnM s).mepc = s.mepc := rfl
@[simp] theorem State.returnM_mcause (s : State) : (returnM s).mcause = s.mcause := rfl
@[simp] theorem State.returnM_mtval (s : State) : (returnM s).mtval = s.mtval := rfl
@[simp] theorem State.returnM_mcounteren (s : State) : (returnM s).mcounteren = s.mcounteren := rfl
@[simp] theorem State.returnM_scounteren (s : State) : (returnM s).scounteren = s.scounteren := rfl
@[simp] theorem State.returnM_mcountinhibit (s : State) : (returnM s).mcountinhibit = s.mcountinhibit := rfl
@[simp] theorem State.returnM_mcycle (s : State) : (returnM s).mcycle = s.mcycle := rfl
@[simp] theorem State.returnM_minstret (s : State) : (returnM s).minstret = countedInstret s := rfl
@[simp] theorem State.returnM_sscratch (s : State) : (returnM s).sscratch = s.sscratch := rfl
@[simp] theorem State.returnM_sepc (s : State) : (returnM s).sepc = s.sepc := rfl
@[simp] theorem State.returnM_scause (s : State) : (returnM s).scause = s.scause := rfl
@[simp] theorem State.returnM_stval (s : State) : (returnM s).stval = s.stval := rfl
@[simp] theorem State.returnM_satp (s : State) : (returnM s).satp = s.satp := rfl
@[simp] theorem State.returnM_mtime (s : State) : (returnM s).mtime = s.mtime := rfl
@[simp] theorem State.returnM_mtimecmp (s : State) : (returnM s).mtimecmp = s.mtimecmp := rfl
@[simp] theorem State.returnM_msip (s : State) : (returnM s).msip = s.msip := rfl
@[simp] theorem State.returnM_extMei (s : State) : (returnM s).extMei = s.extMei := rfl
@[simp] theorem State.returnM_extSei (s : State) : (returnM s).extSei = s.extSei := rfl
@[simp] theorem State.returnM_plicProgrammed (s : State) : (returnM s).plicProgrammed = s.plicProgrammed := rfl
@[simp] theorem State.returnM_mem (s : State) : (returnM s).mem = s.mem := rfl
@[simp] theorem State.returnM_codeHistory (s : State) : (returnM s).codeHistory = s.codeHistory := rfl
@[simp] theorem State.returnM_pteHistory (s : State) : (returnM s).pteHistory = s.pteHistory := rfl
@[simp] theorem State.returnM_rootHistory (s : State) : (returnM s).rootHistory = s.rootHistory := rfl
@[simp] theorem State.returnM_tick (s : State) : (returnM s).tick = s.tick := rfl
@[simp] theorem State.returnM_board (s : State) : (returnM s).board = s.board := rfl

/-! ## `returnS` -/

@[simp] theorem State.returnS_regs (s : State) : (returnS s).regs = s.regs := rfl
@[simp] theorem State.returnS_pc (s : State) : (returnS s).pc = epcValue s.sepc := rfl
@[simp] theorem State.returnS_priv (s : State) : (returnS s).priv = (if s.mstatus.spp then .S else .U) := rfl
@[simp] theorem State.returnS_mstatus (s : State) :
    (returnS s).mstatus =
      { s.mstatus with sie := s.mstatus.spie, spie := true, spp := false } := rfl
@[simp] theorem State.returnS_mtvec (s : State) : (returnS s).mtvec = s.mtvec := rfl
@[simp] theorem State.returnS_stvec (s : State) : (returnS s).stvec = s.stvec := rfl
@[simp] theorem State.returnS_medeleg (s : State) : (returnS s).medeleg = s.medeleg := rfl
@[simp] theorem State.returnS_mideleg (s : State) : (returnS s).mideleg = s.mideleg := rfl
@[simp] theorem State.returnS_mie (s : State) : (returnS s).mie = s.mie := rfl
@[simp] theorem State.returnS_ssip (s : State) : (returnS s).ssip = s.ssip := rfl
@[simp] theorem State.returnS_stip (s : State) : (returnS s).stip = s.stip := rfl
@[simp] theorem State.returnS_seipSw (s : State) : (returnS s).seipSw = s.seipSw := rfl
@[simp] theorem State.returnS_mscratch (s : State) : (returnS s).mscratch = s.mscratch := rfl
@[simp] theorem State.returnS_mepc (s : State) : (returnS s).mepc = s.mepc := rfl
@[simp] theorem State.returnS_mcause (s : State) : (returnS s).mcause = s.mcause := rfl
@[simp] theorem State.returnS_mtval (s : State) : (returnS s).mtval = s.mtval := rfl
@[simp] theorem State.returnS_mcounteren (s : State) : (returnS s).mcounteren = s.mcounteren := rfl
@[simp] theorem State.returnS_scounteren (s : State) : (returnS s).scounteren = s.scounteren := rfl
@[simp] theorem State.returnS_mcountinhibit (s : State) : (returnS s).mcountinhibit = s.mcountinhibit := rfl
@[simp] theorem State.returnS_mcycle (s : State) : (returnS s).mcycle = s.mcycle := rfl
@[simp] theorem State.returnS_minstret (s : State) : (returnS s).minstret = countedInstret s := rfl
@[simp] theorem State.returnS_sscratch (s : State) : (returnS s).sscratch = s.sscratch := rfl
@[simp] theorem State.returnS_sepc (s : State) : (returnS s).sepc = s.sepc := rfl
@[simp] theorem State.returnS_scause (s : State) : (returnS s).scause = s.scause := rfl
@[simp] theorem State.returnS_stval (s : State) : (returnS s).stval = s.stval := rfl
@[simp] theorem State.returnS_satp (s : State) : (returnS s).satp = s.satp := rfl
@[simp] theorem State.returnS_mtime (s : State) : (returnS s).mtime = s.mtime := rfl
@[simp] theorem State.returnS_mtimecmp (s : State) : (returnS s).mtimecmp = s.mtimecmp := rfl
@[simp] theorem State.returnS_msip (s : State) : (returnS s).msip = s.msip := rfl
@[simp] theorem State.returnS_extMei (s : State) : (returnS s).extMei = s.extMei := rfl
@[simp] theorem State.returnS_extSei (s : State) : (returnS s).extSei = s.extSei := rfl
@[simp] theorem State.returnS_plicProgrammed (s : State) : (returnS s).plicProgrammed = s.plicProgrammed := rfl
@[simp] theorem State.returnS_mem (s : State) : (returnS s).mem = s.mem := rfl
@[simp] theorem State.returnS_codeHistory (s : State) : (returnS s).codeHistory = s.codeHistory := rfl
@[simp] theorem State.returnS_pteHistory (s : State) : (returnS s).pteHistory = s.pteHistory := rfl
@[simp] theorem State.returnS_rootHistory (s : State) : (returnS s).rootHistory = s.rootHistory := rfl
@[simp] theorem State.returnS_tick (s : State) : (returnS s).tick = s.tick := rfl
@[simp] theorem State.returnS_board (s : State) : (returnS s).board = s.board := rfl

/-! ## `fenceVma` -/

@[simp] theorem State.fenceVma_regs (s : State) : (fenceVma s).regs = s.regs := rfl
@[simp] theorem State.fenceVma_pc (s : State) : (fenceVma s).pc = s.nextPc := rfl
@[simp] theorem State.fenceVma_priv (s : State) : (fenceVma s).priv = s.priv := rfl
@[simp] theorem State.fenceVma_mstatus (s : State) : (fenceVma s).mstatus = s.mstatus := rfl
@[simp] theorem State.fenceVma_mtvec (s : State) : (fenceVma s).mtvec = s.mtvec := rfl
@[simp] theorem State.fenceVma_stvec (s : State) : (fenceVma s).stvec = s.stvec := rfl
@[simp] theorem State.fenceVma_medeleg (s : State) : (fenceVma s).medeleg = s.medeleg := rfl
@[simp] theorem State.fenceVma_mideleg (s : State) : (fenceVma s).mideleg = s.mideleg := rfl
@[simp] theorem State.fenceVma_mie (s : State) : (fenceVma s).mie = s.mie := rfl
@[simp] theorem State.fenceVma_ssip (s : State) : (fenceVma s).ssip = s.ssip := rfl
@[simp] theorem State.fenceVma_stip (s : State) : (fenceVma s).stip = s.stip := rfl
@[simp] theorem State.fenceVma_seipSw (s : State) : (fenceVma s).seipSw = s.seipSw := rfl
@[simp] theorem State.fenceVma_mscratch (s : State) : (fenceVma s).mscratch = s.mscratch := rfl
@[simp] theorem State.fenceVma_mepc (s : State) : (fenceVma s).mepc = s.mepc := rfl
@[simp] theorem State.fenceVma_mcause (s : State) : (fenceVma s).mcause = s.mcause := rfl
@[simp] theorem State.fenceVma_mtval (s : State) : (fenceVma s).mtval = s.mtval := rfl
@[simp] theorem State.fenceVma_mcounteren (s : State) : (fenceVma s).mcounteren = s.mcounteren := rfl
@[simp] theorem State.fenceVma_scounteren (s : State) : (fenceVma s).scounteren = s.scounteren := rfl
@[simp] theorem State.fenceVma_mcountinhibit (s : State) : (fenceVma s).mcountinhibit = s.mcountinhibit := rfl
@[simp] theorem State.fenceVma_mcycle (s : State) : (fenceVma s).mcycle = s.mcycle := rfl
@[simp] theorem State.fenceVma_minstret (s : State) : (fenceVma s).minstret = countedInstret s := rfl
@[simp] theorem State.fenceVma_sscratch (s : State) : (fenceVma s).sscratch = s.sscratch := rfl
@[simp] theorem State.fenceVma_sepc (s : State) : (fenceVma s).sepc = s.sepc := rfl
@[simp] theorem State.fenceVma_scause (s : State) : (fenceVma s).scause = s.scause := rfl
@[simp] theorem State.fenceVma_stval (s : State) : (fenceVma s).stval = s.stval := rfl
@[simp] theorem State.fenceVma_satp (s : State) : (fenceVma s).satp = s.satp := rfl
@[simp] theorem State.fenceVma_mtime (s : State) : (fenceVma s).mtime = s.mtime := rfl
@[simp] theorem State.fenceVma_mtimecmp (s : State) : (fenceVma s).mtimecmp = s.mtimecmp := rfl
@[simp] theorem State.fenceVma_msip (s : State) : (fenceVma s).msip = s.msip := rfl
@[simp] theorem State.fenceVma_extMei (s : State) : (fenceVma s).extMei = s.extMei := rfl
@[simp] theorem State.fenceVma_extSei (s : State) : (fenceVma s).extSei = s.extSei := rfl
@[simp] theorem State.fenceVma_plicProgrammed (s : State) : (fenceVma s).plicProgrammed = s.plicProgrammed := rfl
@[simp] theorem State.fenceVma_mem (s : State) : (fenceVma s).mem = s.mem := rfl
@[simp] theorem State.fenceVma_codeHistory (s : State) : (fenceVma s).codeHistory = s.codeHistory := rfl
@[simp] theorem State.fenceVma_pteHistory (s : State) : (fenceVma s).pteHistory = [] := rfl
@[simp] theorem State.fenceVma_rootHistory (s : State) : (fenceVma s).rootHistory = [] := rfl
@[simp] theorem State.fenceVma_tick (s : State) : (fenceVma s).tick = s.tick := rfl
@[simp] theorem State.fenceVma_board (s : State) : (fenceVma s).board = s.board := rfl

/-! ## `physWrite` -/

@[simp] theorem State.physWrite_regs (s : State) (pa : Word) (n : Nat) (v : Word) :
    (physWrite s pa n v).regs =
      s.regs := rfl
@[simp] theorem State.physWrite_pc (s : State) (pa : Word) (n : Nat) (v : Word) :
    (physWrite s pa n v).pc =
      s.pc := rfl
@[simp] theorem State.physWrite_priv (s : State) (pa : Word) (n : Nat) (v : Word) :
    (physWrite s pa n v).priv =
      s.priv := rfl
@[simp] theorem State.physWrite_mstatus (s : State) (pa : Word) (n : Nat) (v : Word) :
    (physWrite s pa n v).mstatus =
      s.mstatus := rfl
@[simp] theorem State.physWrite_mtvec (s : State) (pa : Word) (n : Nat) (v : Word) :
    (physWrite s pa n v).mtvec =
      s.mtvec := rfl
@[simp] theorem State.physWrite_stvec (s : State) (pa : Word) (n : Nat) (v : Word) :
    (physWrite s pa n v).stvec =
      s.stvec := rfl
@[simp] theorem State.physWrite_medeleg (s : State) (pa : Word) (n : Nat) (v : Word) :
    (physWrite s pa n v).medeleg =
      s.medeleg := rfl
@[simp] theorem State.physWrite_mideleg (s : State) (pa : Word) (n : Nat) (v : Word) :
    (physWrite s pa n v).mideleg =
      s.mideleg := rfl
@[simp] theorem State.physWrite_mie (s : State) (pa : Word) (n : Nat) (v : Word) :
    (physWrite s pa n v).mie =
      s.mie := rfl
@[simp] theorem State.physWrite_ssip (s : State) (pa : Word) (n : Nat) (v : Word) :
    (physWrite s pa n v).ssip =
      s.ssip := rfl
@[simp] theorem State.physWrite_stip (s : State) (pa : Word) (n : Nat) (v : Word) :
    (physWrite s pa n v).stip =
      s.stip := rfl
@[simp] theorem State.physWrite_seipSw (s : State) (pa : Word) (n : Nat) (v : Word) :
    (physWrite s pa n v).seipSw =
      s.seipSw := rfl
@[simp] theorem State.physWrite_mscratch (s : State) (pa : Word) (n : Nat) (v : Word) :
    (physWrite s pa n v).mscratch =
      s.mscratch := rfl
@[simp] theorem State.physWrite_mepc (s : State) (pa : Word) (n : Nat) (v : Word) :
    (physWrite s pa n v).mepc =
      s.mepc := rfl
@[simp] theorem State.physWrite_mcause (s : State) (pa : Word) (n : Nat) (v : Word) :
    (physWrite s pa n v).mcause =
      s.mcause := rfl
@[simp] theorem State.physWrite_mtval (s : State) (pa : Word) (n : Nat) (v : Word) :
    (physWrite s pa n v).mtval =
      s.mtval := rfl
@[simp] theorem State.physWrite_mcounteren (s : State) (pa : Word) (n : Nat) (v : Word) :
    (physWrite s pa n v).mcounteren =
      s.mcounteren := rfl
@[simp] theorem State.physWrite_scounteren (s : State) (pa : Word) (n : Nat) (v : Word) :
    (physWrite s pa n v).scounteren =
      s.scounteren := rfl
@[simp] theorem State.physWrite_mcountinhibit (s : State) (pa : Word) (n : Nat) (v : Word) :
    (physWrite s pa n v).mcountinhibit =
      s.mcountinhibit := rfl
@[simp] theorem State.physWrite_mcycle (s : State) (pa : Word) (n : Nat) (v : Word) :
    (physWrite s pa n v).mcycle =
      s.mcycle := rfl
@[simp] theorem State.physWrite_minstret (s : State) (pa : Word) (n : Nat) (v : Word) :
    (physWrite s pa n v).minstret =
      s.minstret := rfl
@[simp] theorem State.physWrite_sscratch (s : State) (pa : Word) (n : Nat) (v : Word) :
    (physWrite s pa n v).sscratch =
      s.sscratch := rfl
@[simp] theorem State.physWrite_sepc (s : State) (pa : Word) (n : Nat) (v : Word) :
    (physWrite s pa n v).sepc =
      s.sepc := rfl
@[simp] theorem State.physWrite_scause (s : State) (pa : Word) (n : Nat) (v : Word) :
    (physWrite s pa n v).scause =
      s.scause := rfl
@[simp] theorem State.physWrite_stval (s : State) (pa : Word) (n : Nat) (v : Word) :
    (physWrite s pa n v).stval =
      s.stval := rfl
@[simp] theorem State.physWrite_satp (s : State) (pa : Word) (n : Nat) (v : Word) :
    (physWrite s pa n v).satp =
      s.satp := rfl
@[simp] theorem State.physWrite_extMei (s : State) (pa : Word) (n : Nat) (v : Word) :
    (physWrite s pa n v).extMei =
      s.extMei := rfl
@[simp] theorem State.physWrite_extSei (s : State) (pa : Word) (n : Nat) (v : Word) :
    (physWrite s pa n v).extSei =
      s.extSei := rfl
@[simp] theorem State.physWrite_rootHistory (s : State) (pa : Word) (n : Nat) (v : Word) :
    (physWrite s pa n v).rootHistory =
      s.rootHistory := rfl
@[simp] theorem State.physWrite_tick (s : State) (pa : Word) (n : Nat) (v : Word) :
    (physWrite s pa n v).tick =
      s.tick := rfl
@[simp] theorem State.physWrite_board (s : State) (pa : Word) (n : Nat) (v : Word) :
    (physWrite s pa n v).board =
      s.board := rfl

/-! ## `applyUpdate` -/

@[simp] theorem State.applyUpdate_regs (s : State) (u : Option (Word × Word)) :
    (applyUpdate s u).regs = s.regs := by cases u <;> rfl
@[simp] theorem State.applyUpdate_pc (s : State) (u : Option (Word × Word)) :
    (applyUpdate s u).pc = s.pc := by cases u <;> rfl
@[simp] theorem State.applyUpdate_priv (s : State) (u : Option (Word × Word)) :
    (applyUpdate s u).priv = s.priv := by cases u <;> rfl
@[simp] theorem State.applyUpdate_mstatus (s : State) (u : Option (Word × Word)) :
    (applyUpdate s u).mstatus = s.mstatus := by cases u <;> rfl
@[simp] theorem State.applyUpdate_mtvec (s : State) (u : Option (Word × Word)) :
    (applyUpdate s u).mtvec = s.mtvec := by cases u <;> rfl
@[simp] theorem State.applyUpdate_stvec (s : State) (u : Option (Word × Word)) :
    (applyUpdate s u).stvec = s.stvec := by cases u <;> rfl
@[simp] theorem State.applyUpdate_medeleg (s : State) (u : Option (Word × Word)) :
    (applyUpdate s u).medeleg = s.medeleg := by cases u <;> rfl
@[simp] theorem State.applyUpdate_mideleg (s : State) (u : Option (Word × Word)) :
    (applyUpdate s u).mideleg = s.mideleg := by cases u <;> rfl
@[simp] theorem State.applyUpdate_mie (s : State) (u : Option (Word × Word)) :
    (applyUpdate s u).mie = s.mie := by cases u <;> rfl
@[simp] theorem State.applyUpdate_ssip (s : State) (u : Option (Word × Word)) :
    (applyUpdate s u).ssip = s.ssip := by cases u <;> rfl
@[simp] theorem State.applyUpdate_stip (s : State) (u : Option (Word × Word)) :
    (applyUpdate s u).stip = s.stip := by cases u <;> rfl
@[simp] theorem State.applyUpdate_seipSw (s : State) (u : Option (Word × Word)) :
    (applyUpdate s u).seipSw = s.seipSw := by cases u <;> rfl
@[simp] theorem State.applyUpdate_mscratch (s : State) (u : Option (Word × Word)) :
    (applyUpdate s u).mscratch = s.mscratch := by cases u <;> rfl
@[simp] theorem State.applyUpdate_mepc (s : State) (u : Option (Word × Word)) :
    (applyUpdate s u).mepc = s.mepc := by cases u <;> rfl
@[simp] theorem State.applyUpdate_mcause (s : State) (u : Option (Word × Word)) :
    (applyUpdate s u).mcause = s.mcause := by cases u <;> rfl
@[simp] theorem State.applyUpdate_mtval (s : State) (u : Option (Word × Word)) :
    (applyUpdate s u).mtval = s.mtval := by cases u <;> rfl
@[simp] theorem State.applyUpdate_mcounteren (s : State) (u : Option (Word × Word)) :
    (applyUpdate s u).mcounteren = s.mcounteren := by cases u <;> rfl
@[simp] theorem State.applyUpdate_scounteren (s : State) (u : Option (Word × Word)) :
    (applyUpdate s u).scounteren = s.scounteren := by cases u <;> rfl
@[simp] theorem State.applyUpdate_mcountinhibit (s : State) (u : Option (Word × Word)) :
    (applyUpdate s u).mcountinhibit = s.mcountinhibit := by cases u <;> rfl
@[simp] theorem State.applyUpdate_mcycle (s : State) (u : Option (Word × Word)) :
    (applyUpdate s u).mcycle = s.mcycle := by cases u <;> rfl
@[simp] theorem State.applyUpdate_minstret (s : State) (u : Option (Word × Word)) :
    (applyUpdate s u).minstret = s.minstret := by cases u <;> rfl
@[simp] theorem State.applyUpdate_sscratch (s : State) (u : Option (Word × Word)) :
    (applyUpdate s u).sscratch = s.sscratch := by cases u <;> rfl
@[simp] theorem State.applyUpdate_sepc (s : State) (u : Option (Word × Word)) :
    (applyUpdate s u).sepc = s.sepc := by cases u <;> rfl
@[simp] theorem State.applyUpdate_scause (s : State) (u : Option (Word × Word)) :
    (applyUpdate s u).scause = s.scause := by cases u <;> rfl
@[simp] theorem State.applyUpdate_stval (s : State) (u : Option (Word × Word)) :
    (applyUpdate s u).stval = s.stval := by cases u <;> rfl
@[simp] theorem State.applyUpdate_satp (s : State) (u : Option (Word × Word)) :
    (applyUpdate s u).satp = s.satp := by cases u <;> rfl
@[simp] theorem State.applyUpdate_extMei (s : State) (u : Option (Word × Word)) :
    (applyUpdate s u).extMei = s.extMei := by cases u <;> rfl
@[simp] theorem State.applyUpdate_extSei (s : State) (u : Option (Word × Word)) :
    (applyUpdate s u).extSei = s.extSei := by cases u <;> rfl
@[simp] theorem State.applyUpdate_rootHistory (s : State) (u : Option (Word × Word)) :
    (applyUpdate s u).rootHistory = s.rootHistory := by cases u <;> rfl
@[simp] theorem State.applyUpdate_tick (s : State) (u : Option (Word × Word)) :
    (applyUpdate s u).tick = s.tick := by cases u <;> rfl
@[simp] theorem State.applyUpdate_board (s : State) (u : Option (Word × Word)) :
    (applyUpdate s u).board = s.board := by cases u <;> rfl

@[simp] theorem applyUpdate_none (s : State) : applyUpdate s none = s := rfl

end Sys2Proof.Machine
end

