-- ==== Sys2Proof/Laws/Memory.lean ====
section
/-! SUPPORT. The laws of memory: every operation keeps the canonical form, a byte written reads as written and
every other byte as before, and a value stored little-endian loads as its bytes (spec/20_memory.md R122). -/

namespace Sys2Proof.Machine

/-! ## The canonical form -/

theorem Memory.wfFrom_cons (lo a : Nat) (v : Byte) (m : Memory) :
    Memory.wfFrom lo ((a, v) :: m) = true ↔ lo ≤ a ∧ v ≠ unlistedByte ∧ Memory.wfFrom (a + 1) m = true := by
  simp [Memory.wfFrom, and_assoc]

theorem Memory.wfFrom_mono {lo lo' : Nat} {m : Memory} (h : lo' ≤ lo) (hm : Memory.wfFrom lo m = true) :
    Memory.wfFrom lo' m = true := by
  cases m with
  | nil => rfl
  | cons c m =>
    obtain ⟨a, v⟩ := c
    rw [Memory.wfFrom_cons] at hm ⊢
    exact ⟨Nat.le_trans h hm.1, hm.2⟩

theorem Memory.wfFrom_setByte {m : Memory} {lo a : Nat} (v : Byte) (ha : lo ≤ a)
    (hm : Memory.wfFrom lo m = true) : Memory.wfFrom lo (m.setByte a v) = true := by
  induction m generalizing lo with
  | nil =>
    unfold Memory.setByte
    split
    · rfl
    · rename_i hv; exact (Memory.wfFrom_cons ..).2 ⟨ha, hv, rfl⟩
  | cons c m ih =>
    obtain ⟨b, w⟩ := c
    obtain ⟨hb, hw, hrest⟩ := (Memory.wfFrom_cons ..).1 hm
    unfold Memory.setByte
    split
    · rename_i hab
      split
      · exact hm
      · rename_i hv
        exact (Memory.wfFrom_cons ..).2 ⟨ha, hv, (Memory.wfFrom_cons ..).2 ⟨hab, hw, hrest⟩⟩
    · split
      · rename_i hab
        subst hab
        split
        · exact Memory.wfFrom_mono (Nat.le_succ_of_le ha) hrest
        · rename_i hv; exact (Memory.wfFrom_cons ..).2 ⟨ha, hv, hrest⟩
      · rename_i h1 h2
        exact (Memory.wfFrom_cons ..).2 ⟨hb, hw, ih (by omega) hrest⟩

theorem Memory.wf_setByte {m : Memory} (a : Nat) (v : Byte) (hm : m.wf = true) : (m.setByte a v).wf = true :=
  Memory.wfFrom_setByte v (Nat.zero_le a) hm

theorem Memory.wf_store {m : Memory} (n a : Nat) (v : Word) (hm : m.wf = true) : (m.store a v n).wf = true := by
  induction n generalizing m a v with
  | zero => exact hm
  | succ n ih => exact ih _ _ (Memory.wf_setByte _ _ hm)

theorem physWrite_mem_wf {s : State} (pa : Word) (n : Nat) (v : Word) (hm : s.mem.wf = true) :
    (physWrite s pa n v).mem.wf = true := by
  simp only [physWrite]
  split
  · exact Memory.wf_store _ _ _ hm
  · exact hm

theorem applyUpdate_mem_wf {s : State} (u : Option (Word × Word)) (hm : s.mem.wf = true) :
    (applyUpdate s u).mem.wf = true := by
  cases u with
  | none => exact hm
  | some u => exact physWrite_mem_wf _ _ _ hm

theorem placeWord_mem_wf {s : State} (w : InstrWord) (hm : s.mem.wf = true) : (placeWord s w).mem.wf = true :=
  Memory.wf_store _ _ _ hm

theorem resetOn_mem_wf (b : Board) : (State.resetOn b).mem.wf = true := rfl

/-! ## Bytes -/

theorem Memory.byteAt_of_lt {m : Memory} {lo a : Nat} (hm : Memory.wfFrom lo m = true) (ha : a < lo) :
    m.byteAt a = unlistedByte := by
  induction m generalizing lo with
  | nil => rfl
  | cons c m ih =>
    obtain ⟨b, w⟩ := c
    obtain ⟨hb, -, hrest⟩ := (Memory.wfFrom_cons ..).1 hm
    have hne : a ≠ b := by omega
    simp only [Memory.byteAt, hne, if_false]
    exact ih hrest (by omega)

theorem Memory.byteAt_setByte_from {m : Memory} {lo : Nat} (hm : Memory.wfFrom lo m = true) (a : Nat) (v : Byte)
    (x : Nat) : (m.setByte a v).byteAt x = if x = a then v else m.byteAt x := by
  induction m generalizing lo with
  | nil =>
    unfold Memory.setByte
    split
    · rename_i hv
      simp [Memory.byteAt, hv]
    · simp [Memory.byteAt]
  | cons c m ih =>
    obtain ⟨b, w⟩ := c
    obtain ⟨hb, hw, hrest⟩ := (Memory.wfFrom_cons ..).1 hm
    unfold Memory.setByte
    split
    · rename_i hab
      split
      · rename_i hv
        by_cases hx : x = a
        · subst hx
          have : x ≠ b := by omega
          simp [Memory.byteAt, this, hv, Memory.byteAt_of_lt hrest (by omega : x < b + 1)]
        · simp [hx]
      · simp [Memory.byteAt]
    · split
      · rename_i hab
        subst hab
        split
        · rename_i hv
          by_cases hx : x = a
          · subst hx
            simp [hv, Memory.byteAt_of_lt hrest (Nat.lt_succ_self x)]
          · simp [Memory.byteAt, hx]
        · by_cases hx : x = a <;> simp [Memory.byteAt, hx]
      · rename_i h1 h2
        by_cases hx : x = b
        · subst hx
          have : x ≠ a := fun h => h2 h.symm
          simp [Memory.byteAt, this]
        · simp [Memory.byteAt, hx, ih hrest]

/-- A byte written reads as written, and every other byte as before. -/
theorem Memory.byteAt_setByte {m : Memory} (hm : m.wf = true) (a : Nat) (v : Byte) (x : Nat) :
    (m.setByte a v).byteAt x = if x = a then v else m.byteAt x := Memory.byteAt_setByte_from hm a v x

/-! ## Values -/

/-- A store leaves every byte outside its range alone. -/
theorem Memory.byteAt_store_outside {m : Memory} (hm : m.wf = true) (n a : Nat) (v : Word) {x : Nat}
    (hx : ¬InRange x a n) : (m.store a v n).byteAt x = m.byteAt x := by
  induction n generalizing m a v with
  | zero => rfl
  | succ n ih =>
    have h1 : ¬InRange x (a + 1) n := fun h => hx ⟨by have := h.1; omega, by have := h.2; omega⟩
    have h2 : x ≠ a := fun h => hx ⟨by omega, by omega⟩
    simp only [Memory.store]
    rw [ih (Memory.wf_setByte _ _ hm) _ _ h1, Memory.byteAt_setByte hm, if_neg h2]

/-- A store leaves its bytes, little-endian, in its range (R122). -/
theorem Memory.store_holds {m : Memory} (hm : m.wf = true) (n a : Nat) (v : Word) :
    HoldsBytes (m.store a v n) a n v := by
  induction n generalizing m a v with
  | zero => intro k hk; omega
  | succ n ih =>
    intro k hk
    have hm' := Memory.wf_setByte a (v.setWidth 8) hm
    simp only [Memory.store]
    cases k with
    | zero =>
      rw [Memory.byteAt_store_outside hm' n (a + 1) _ (by rintro ⟨h, -⟩; omega),
        Memory.byteAt_setByte hm, if_pos (Nat.add_zero a)]
      ext i hi
      simp [BitVec.getElem_setWidth, BitVec.getElem_extractLsb']
    | succ k =>
      have := ih hm' (a + 1) (v >>> 8) k (by omega)
      rw [Nat.add_right_comm] at this
      rw [show a + (k + 1) = a + k + 1 from rfl, this]
      ext i hi
      simp [BitVec.getElem_extractLsb', BitVec.getLsbD_ushiftRight]
      congr 1
      omega

/-- What a load returns is the little-endian value of the bytes in its range (R122). -/
theorem Memory.load_holds (m : Memory) (n a : Nat) : n ≤ 8 → HoldsBytes m a n (m.load a n) := by
  induction n generalizing a with
  | zero => intro _ k hk; omega
  | succ n ih =>
    intro hn k hk
    simp only [Memory.load]
    cases k with
    | zero =>
      ext i hi
      have h64 : i < 64 := by omega
      simp [BitVec.getElem_extractLsb', hi, h64, BitVec.getLsbD_eq_getElem]
    | succ k =>
      have := ih (a + 1) (by omega) k (by omega)
      rw [show a + (k + 1) = a + 1 + k by omega, this]
      ext i hi
      have h8 : 8 ≤ 8 * (k + 1) + i := by omega
      have hb : (m.byteAt a).getLsbD (8 * (k + 1) + i) = false := BitVec.getLsbD_of_ge _ _ h8
      have hlt : 8 * (k + 1) + i < 64 := by omega
      have he : 8 * (k + 1) + i - 8 = 8 * k + i := by omega
      have hk64 : 8 * k + i < 64 := by omega
      rw [BitVec.getElem_extractLsb', BitVec.getElem_extractLsb', BitVec.getLsbD_or, BitVec.getLsbD_setWidth,
        BitVec.getLsbD_shiftLeft, hb, he]
      simp [hlt, show ¬ 8 * (k + 1) + i < 8 by omega]

end Sys2Proof.Machine
end

