-- ==== Sys2Proof/Laws/Ops.lean ====
section
/-! SUPPORT. One lemma per shared operation that says what it can do, so that a proof about an instruction cites
it and does not unfold the operation. -/

namespace Sys2Proof.Machine

/-! ## Registers -/

@[simp] theorem State.reg_x0 (s : State) : s.reg 0#5 = 0#64 := rfl

theorem State.reg_congr {s t : State} (h : t.regs = s.regs) : SameRegs s t := by
  intro q; simp [State.reg, h]

/-- A register write as R21 has it. -/
theorem State.setReg_regIs (s : State) (r : Reg) (v : Word) : RegIs s (s.setReg r v) r v := by
  constructor
  · by_cases h : r = 0#5 <;> simp [State.reg, State.setReg, writeRegs, h]
  · intro q hq
    by_cases h : r = 0#5
    · simp [State.setReg, writeRegs, h, State.reg]
    · by_cases h0 : q = 0#5
      · simp [State.reg, h0]
      · have hne : r.toNat ≠ q.toNat := fun he => hq (BitVec.eq_of_toNat_eq he.symm)
        simp [State.reg, State.setReg, writeRegs, h, h0, Vector.getElem_set_ne _ _ hne]

theorem RegIs.of_regs {s t u : State} {r : Reg} {v : Word} (h : RegIs s t r v) (hu : u.regs = t.regs) :
    RegIs s u r v :=
  ⟨by rw [State.reg_congr hu r]; exact h.1, fun q hq => by rw [State.reg_congr hu q]; exact h.2 q hq⟩

theorem RegIs.of_base {s t u : State} {r : Reg} {v : Word} (h : RegIs t u r v) (hu : t.regs = s.regs) :
    RegIs s u r v :=
  ⟨h.1, fun q hq => by rw [h.2 q hq]; exact State.reg_congr hu q⟩

/-! ## Frames -/

theorem SameSystem.refl (s : State) : SameSystem s s := by
  simp [SameSystem, SameMode, SameTrapRegs, SameControl]

theorem SamePlatform.refl (s : State) : SamePlatform s s := by simp [SamePlatform]

theorem SameHidden.refl (s : State) : SameHidden s s := by simp [SameHidden]

theorem SameSystem.of_eq {s t u : State} (h : SameSystem s t) (hm : SameMode t u) (ht : SameTrapRegs t u)
    (hc : SameControl t u) : SameSystem s u := by
  simp_all [SameSystem, SameMode, SameTrapRegs, SameControl]

theorem setReg_retire_frame (s : State) (r : Reg) (v n : Word) :
    SameSystem s ((s.setReg r v).retire n) ∧ SamePlatform s ((s.setReg r v).retire n) ∧
    SameHidden s ((s.setReg r v).retire n) ∧ SameMemory s ((s.setReg r v).retire n) := by
  simp [SameSystem, SameMode, SameTrapRegs, SameControl, SamePlatform, SameHidden, SameMemory]

theorem retire_frame (s : State) (n : Word) :
    SameRegs s (s.retire n) ∧ Counted s (s.retire n) ∧ SameSystem s (s.retire n) ∧ SamePlatform s (s.retire n) ∧
    SameHidden s (s.retire n) ∧ SameMemory s (s.retire n) :=
  ⟨State.reg_congr rfl, rfl,
    by simp [SameSystem, SameMode, SameTrapRegs, SameControl, SamePlatform, SameHidden, SameMemory]⟩

/-! ## Register results and jumps -/

/-- `writeAndRetire` completes and does nothing else (R230). -/
theorem writeAndRetire_writes (s : State) (rd : Reg) (v : Word) : Writes s (s.writeAndRetire rd v) rd v :=
  ⟨_, rfl, (State.setReg_regIs s rd v).of_regs rfl, rfl, rfl, setReg_retire_frame s rd v s.nextPc⟩

/-- A jump to an aligned target completes there (R261, R262). -/
theorem jumpTo_aligned {s : State} {rd : Reg} {target : Word} (h : target.toNat % 4 = 0) :
    WritesAndGoes s (jumpTo s rd target) rd (s.pc + 4#64) target := by
  have hm : misaligned target 4 = false := by simp [misaligned, h]
  refine ⟨(s.setReg rd s.nextPc).retire target, by simp [jumpTo, hm],
    (State.setReg_regIs s rd _).of_regs rfl, rfl, rfl, setReg_retire_frame ..⟩

/-- A jump to a misaligned target traps on the jump (R269). -/
theorem jumpTo_misaligned {s : State} {rd : Reg} {target : Word} (h : target.toNat % 4 ≠ 0) :
    Traps s (jumpTo s rd target) .instrMisaligned s.pc target := by
  simp [Traps, jumpTo, misaligned, h, State.raise]

/-- A branch that is not taken goes on in line. -/
theorem branchTo_not_taken (s : State) (off : BitVec 13) : Goes s (branchTo s false off) (s.pc + 4#64) :=
  let f := retire_frame s s.nextPc
  ⟨_, rfl, f.1, rfl, f.2⟩

/-- A taken branch to an aligned target goes there. -/
theorem branchTo_taken {s : State} {off : BitVec 13} (h : (s.pc + off.signExtend 64).toNat % 4 = 0) :
    Goes s (branchTo s true off) (s.pc + off.signExtend 64) := by
  have hm : misaligned (s.pc + immB off) 4 = false := decide_eq_false (not_not.2 h)
  let f := retire_frame s (s.pc + immB off)
  exact ⟨_, by simp only [branchTo, if_true, hm, Bool.false_eq_true, if_false], f.1, rfl, f.2⟩

/-- A taken branch to a misaligned target traps on the branch (R269). -/
theorem branchTo_misaligned {s : State} {off : BitVec 13} (h : (s.pc + off.signExtend 64).toNat % 4 ≠ 0) :
    Traps s (branchTo s true off) .instrMisaligned s.pc (s.pc + off.signExtend 64) := by
  have hm : misaligned (s.pc + immB off) 4 = true := decide_eq_true h
  simp only [Traps, branchTo, if_true, hm, State.raise]
  rfl

/-! ## The checks of a data access (R125) -/

theorem resolve_ok {s : State} {va : Word} {t : Access} {p : Priv} {n : Nat} {tr : Translation}
    (h : translateVa s va t p = .ok tr) (ha : physAccessible s.board tr.pa n t = true) :
    resolve s va t p n = .ok (tr.pa, applyUpdate s tr.update) := by
  simp [resolve, h, ha]

theorem resolve_cases {s : State} {va : Word} {t : Access} {p : Priv} {n : Nat} {pa : Word} {s1 : State}
    (h : resolve s va t p n = .ok (pa, s1)) :
    ∃ tr, translateVa s va t p = .ok tr ∧ physAccessible s.board tr.pa n t = true ∧ pa = tr.pa ∧
      s1 = applyUpdate s tr.update := by
  unfold resolve at h
  split at h
  · cases h
  · rename_i tr htr
    split at h
    · rename_i ha; cases h; exact ⟨tr, htr, ha, rfl, rfl⟩
    · cases h

theorem resolveData_ok {s : State} {va : Word} {t : Access} {w : Width} {tr : Translation}
    (h : DataOk s va t w.bytes tr) : resolveData s va t w = .ok (tr.pa, applyUpdate s tr.update) := by
  simp [resolveData, misaligned, h.1, resolve_ok h.2.1 h.2.2]

theorem resolveData_cases {s : State} {va : Word} {t : Access} {w : Width} {pa : Word} {s1 : State}
    (h : resolveData s va t w = .ok (pa, s1)) :
    ∃ tr, DataOk s va t w.bytes tr ∧ pa = tr.pa ∧ s1 = applyUpdate s tr.update := by
  unfold resolveData at h
  split at h
  · cases h
  · rename_i hm
    obtain ⟨tr, ht, ha, h1, h2⟩ := resolve_cases h
    exact ⟨tr, ⟨by simpa [misaligned] using hm, ht, ha⟩, h1, h2⟩

theorem resolveData_misaligned {s : State} {va : Word} {t : Access} {w : Width} (h : va.toNat % w.bytes ≠ 0) :
    resolveData s va t w = .error (misalignedExc t) := by
  simp [resolveData, misaligned, h]

theorem resolveData_error {s : State} {va : Word} {t : Access} {w : Width} {e : Exc} (h : va.toNat % w.bytes = 0)
    (ht : translateVa s va t s.dataPriv = .error e) : resolveData s va t w = .error e := by
  simp [resolveData, misaligned, h, resolve, ht]

theorem resolveData_inaccessible {s : State} {va : Word} {t : Access} {w : Width} {tr : Translation}
    (h : va.toNat % w.bytes = 0) (ht : translateVa s va t s.dataPriv = .ok tr)
    (ha : physAccessible s.board tr.pa w.bytes t = false) : resolveData s va t w = .error (accessFaultExc t) := by
  simp [resolveData, misaligned, h, resolve, ht, ha]

/-! ## Physical writes -/

theorem physWrite_ram {s : State} {pa : Word} {n : Nat} {v : Word} (h : responder s.board pa.toNat n = .ram) :
    (physWrite s pa n v).mem = s.mem.store pa.toNat v n ∧ SamePlatform s (physWrite s pa n v) := by
  simp [physWrite, h, SamePlatform]

theorem physWrite_device {s : State} {pa : Word} {n : Nat} {v : Word} (h : responder s.board pa.toNat n ≠ .ram) :
    (physWrite s pa n v).mem = s.mem := by
  simp [physWrite, h]

/-- A physical write changes no register, no pc, no mode, no CSR and no line. -/
theorem physWrite_frame (s : State) (pa : Word) (n : Nat) (v : Word) :
    SameRegs s (physWrite s pa n v) ∧ SameSystem s (physWrite s pa n v) ∧ SameLines s (physWrite s pa n v) ∧
    (physWrite s pa n v).rootHistory = s.rootHistory := by
  refine ⟨State.reg_congr rfl, ?_⟩
  simp [SameSystem, SameMode, SameTrapRegs, SameControl, SameLines]

/-- The A and D update touches only the eight bytes of the entry (R149). -/
theorem applyUpdate_byteAt {s : State} (hm : s.mem.wf = true) (tr : Translation) {a : Nat} (ha : ¬InUpdate tr a) :
    (applyUpdate s tr.update).mem.byteAt a = s.mem.byteAt a := by
  cases hu : tr.update with
  | none => rfl
  | some u =>
    have hr : ¬InRange a u.1.toNat 8 := fun h => ha ⟨u, hu, h⟩
    by_cases h : responder s.board u.1.toNat 8 = .ram
    · simp only [applyUpdate, (physWrite_ram h).1]
      exact Memory.byteAt_store_outside hm 8 _ _ hr
    · simp only [applyUpdate, physWrite_device h]

theorem physRead_ram {s : State} {pa : Word} {n : Nat} {site : Site} (h : responder s.board pa.toNat n = .ram) :
    physRead s pa n site = s.mem.load pa.toNat n := by
  simp [physRead, h]

theorem implicitRead_ram {s : State} {pa : Word} {n : Nat} {site : Site} (h : responder s.board pa.toNat n = .ram) :
    implicitRead s pa n site = s.mem.load pa.toNat n := if_pos h

theorem Width.bytes_le (w : Width) : w.bytes ≤ 8 := by cases w <;> decide

/-- The histories a physical write leaves: the doubleword it overwrites, added where memory answers (R154, R162). -/
theorem physWrite_histories (s : State) (pa : Word) (n : Nat) (v : Word) :
    (physWrite s pa n v).codeHistory =
      (if responder s.board pa.toNat n = .ram then overwritten s.mem pa.toNat :: s.codeHistory
        else s.codeHistory) ∧
    (physWrite s pa n v).pteHistory =
      (if responder s.board pa.toNat n = .ram then overwritten s.mem pa.toNat :: s.pteHistory
        else s.pteHistory) := ⟨rfl, rfl⟩

/-- The write of a page-table entry in memory leaves the new value in its bytes (R149). -/
theorem applyUpdate_holds {s : State} (hm : s.mem.wf = true) {tr : Translation} {u : Word × Word}
    (hu : tr.update = some u) (hr : responder s.board u.1.toNat 8 = .ram) :
    HoldsBytes (applyUpdate s tr.update).mem u.1.toNat 8 u.2 := by
  simp only [hu, applyUpdate, (physWrite_ram hr).1]
  exact Memory.store_holds hm 8 _ _

/-- The A and D update changes no register, no pc, no mode, no CSR and no line. -/
theorem applyUpdate_frame (s : State) (u : Option (Word × Word)) :
    SameRegs s (applyUpdate s u) ∧ (applyUpdate s u).pc = s.pc ∧ (applyUpdate s u).minstret = s.minstret ∧
    SameSystem s (applyUpdate s u) ∧ SameLines s (applyUpdate s u) := by
  cases u with
  | none => exact ⟨fun _ => rfl, rfl, rfl, SameSystem.refl s, by simp [SameLines, applyUpdate]⟩
  | some u =>
    obtain ⟨h1, h2, h3, -⟩ := physWrite_frame s u.1 8 u.2
    exact ⟨h1, rfl, rfl, h2, h3⟩

/-- A fetch whose translation and physical check pass answers the word at the physical address, in the state that the
write of the A bit leaves (R124). -/
theorem fetchWord_ok {s : State} {va : Word} {tr : Translation} (h : translateVa s va .fetch s.priv = .ok tr)
    (ha : physAccessible s.board tr.pa 4 .fetch = true) :
    fetchWord s va = .ok (fetchedWord (applyUpdate s tr.update) tr.pa, applyUpdate s tr.update) := by
  simp [fetchWord, resolve_ok h ha]

/-- A write through a translation is the store of `Stored`. -/
theorem physWrite_stored {s : State} (hm : s.mem.wf = true) (tr : Translation) (n : Nat) (v : Word) :
    Stored s (physWrite (applyUpdate s tr.update) tr.pa n v) tr n v := by
  have hm1 := applyUpdate_mem_wf tr.update hm
  refine ⟨SamePlatform.refl _, SameHidden.refl _, fun _ => rfl, fun u k hu hr hk hout => ?_, by simp [SameLines],
    by simp, fun h => ?_, fun h a ha => ?_⟩
  · have hold := applyUpdate_holds hm hu hr k hk
    by_cases h : responder s.board tr.pa.toNat n = .ram
    · have h1 : responder (applyUpdate s tr.update).board tr.pa.toNat n = .ram := by simpa using h
      rw [(physWrite_ram h1).1, Memory.byteAt_store_outside hm1 n _ v (hout h), hold]
    · have h1 : responder (applyUpdate s tr.update).board tr.pa.toNat n ≠ .ram := by simpa using h
      rw [physWrite_device h1, hold]
  · have h1 : responder (applyUpdate s tr.update).board tr.pa.toNat n = .ram := by simpa using h
    obtain ⟨e1, e2⟩ := physWrite_ram (v := v) h1
    refine ⟨by rw [e1]; exact Memory.store_holds hm1 n _ v, e2, fun a ha hu => ?_⟩
    rw [e1, Memory.byteAt_store_outside hm1 n _ v ha, applyUpdate_byteAt hm tr hu]
  · have h1 : responder (applyUpdate s tr.update).board tr.pa.toNat n ≠ .ram := by simpa using h
    rw [physWrite_device h1, applyUpdate_byteAt hm tr ha]

theorem Stored.of_same {s t u : State} {tr : Translation} {n : Nat} {v : Word} (h : Stored s t tr n v)
    (hm : u.mem = t.mem) (hp : SamePlatform t u) (hh : SameHidden t u) : Stored s u tr n v := by
  obtain ⟨h1, h2, h3, h4, h5, h6, h7, h8⟩ := h
  refine ⟨by simp_all only [SamePlatform, and_self], by simp_all only [SameHidden, and_self],
    fun a => by rw [hm]; exact h3 a, fun a k b c d e => by rw [hm]; exact h4 a k b c d e,
    by simp_all only [SameLines, SamePlatform, and_self], by rw [hh.2.2]; exact h6, fun g => ?_,
    fun g a ha => by rw [hm]; exact h8 g a ha⟩
  obtain ⟨a1, a2, a3⟩ := h7 g
  exact ⟨by rw [hm]; exact a1, by simp_all only [SamePlatform, and_self], fun a b c => by rw [hm]; exact a3 a b c⟩

/-! ## Loads, stores, AMOs -/

theorem loadTo_ok {s : State} {rd : Reg} {va : Word} {w : Width} {ext : Word → Word} {tr : Translation}
    (h : DataOk s va .load w.bytes tr) :
    loadTo s rd va w ext = (applyUpdate s tr.update).writeAndRetire rd
      (ext (physRead (applyUpdate s tr.update) tr.pa w.bytes (.data .load))) := by
  simp [loadTo, memRead, resolveData_ok h]

/-- A load whose access passes every check completes. -/
theorem loadTo_loads {s : State} (hm : s.mem.wf = true) {rd : Reg} {va : Word} {w : Width} {ext : Word → Word}
    {tr : Translation} (h : DataOk s va .load w.bytes tr) :
    Loads s (loadTo s rd va w ext) rd tr w.bytes ext := by
  refine ⟨_, physRead (applyUpdate s tr.update) tr.pa w.bytes (.data .load), loadTo_ok h, rfl, ?_, ?_⟩
  · exact ((State.setReg_regIs (applyUpdate s tr.update) rd _).of_regs rfl).of_base (by simp)
  · refine ⟨by simp [State.nextPc], by simp [Counted, countedInstret],
      by simp [SameSystem, SameMode, SameTrapRegs, SameControl], by simp [SamePlatform], by simp [SameHidden],
      by simp [SameMemory], fun a ha => by simpa using applyUpdate_byteAt hm tr ha, fun hr => ?_⟩
    rw [physRead_ram (by simpa using hr)]
    simpa using Memory.load_holds _ _ _ w.bytes_le

theorem loadTo_error {s : State} {rd : Reg} {va : Word} {w : Width} {ext : Word → Word} {e : Exc}
    (h : resolveData s va .load w = .error e) : Traps s (loadTo s rd va w ext) e s.pc va := by
  simp [Traps, loadTo, memRead, h, State.raise]

theorem storeFrom_ok {s : State} {va : Word} {w : Width} {v : Word} {tr : Translation}
    (h : DataOk s va .store w.bytes tr) :
    storeFrom s va w v =
      .next ((physWrite (applyUpdate s tr.update) tr.pa w.bytes v).retire s.nextPc) := by
  simp [storeFrom, memWrite, resolveData_ok h]

/-- A store whose access passes every check completes. -/
theorem storeFrom_stores {s : State} (hm : s.mem.wf = true) {va : Word} {w : Width} {v : Word}
    {tr : Translation} (h : DataOk s va .store w.bytes tr) :
    Stores s (storeFrom s va w v) tr w.bytes v := by
  refine ⟨_, storeFrom_ok h, ?_, rfl, ?_, ?_, ?_⟩
  · exact State.reg_congr (by simp)
  · simp [Counted, countedInstret]
  · simp [SameSystem, SameMode, SameTrapRegs, SameControl]
  · exact (physWrite_stored hm tr w.bytes v).of_same rfl (by simp [SamePlatform]) (by simp [SameHidden])

theorem storeFrom_error {s : State} {va : Word} {w : Width} {v : Word} {e : Exc}
    (h : resolveData s va .store w = .error e) : Traps s (storeFrom s va w v) e s.pc va := by
  simp [Traps, storeFrom, memWrite, h, State.raise]

theorem storeConditional_ok {s : State} {rd : Reg} {va : Word} {w : Width} {v : Word} {tr : Translation}
    (h : DataOk s va .store w.bytes tr) :
    storeConditional s rd va w v =
      (physWrite (applyUpdate s tr.update) tr.pa w.bytes v).writeAndRetire rd 0#64 := by
  simp [storeConditional, memWrite, resolveData_ok h]

/-- An SC whose access passes every check completes and reports success. -/
theorem storeConditional_stores {s : State} (hm : s.mem.wf = true) {rd : Reg} {va : Word} {w : Width} {v : Word}
    {tr : Translation} (h : DataOk s va .store w.bytes tr) :
    StoresAndClears s (storeConditional s rd va w v) rd tr w.bytes v := by
  refine ⟨_, storeConditional_ok h, ?_, ?_, ?_, ?_, ?_⟩
  · exact ((State.setReg_regIs _ rd _).of_regs rfl).of_base (by simp)
  · simp [State.nextPc]
  · simp [Counted, countedInstret]
  · simp [SameSystem, SameMode, SameTrapRegs, SameControl]
  · exact (physWrite_stored hm tr w.bytes v).of_same rfl (by simp [SamePlatform]) (by simp [SameHidden])

theorem storeConditional_error {s : State} {rd : Reg} {va : Word} {w : Width} {v : Word} {e : Exc}
    (h : resolveData s va .store w = .error e) : Traps s (storeConditional s rd va w v) e s.pc va := by
  simp [Traps, storeConditional, memWrite, h, State.raise]

theorem amoTo_ok {s : State} {rd : Reg} {va : Word} {w : Width} {f ext : Word → Word} {tr : Translation}
    (h : DataOk s va .store w.bytes tr) :
    amoTo s rd va w f ext =
      (physWrite (applyUpdate s tr.update) tr.pa w.bytes
        (f (physRead (applyUpdate s tr.update) tr.pa w.bytes (.data .store)))).writeAndRetire rd
          (ext (physRead (applyUpdate s tr.update) tr.pa w.bytes (.data .store))) := by
  simp [amoTo, memAmo, resolveData_ok h]

/-- An AMO whose access passes every check completes. -/
theorem amoTo_updates {s : State} (hm : s.mem.wf = true) {rd : Reg} {va : Word} {w : Width}
    {f ext : Word → Word} {tr : Translation} (h : DataOk s va .store w.bytes tr) :
    Updates s (amoTo s rd va w f ext) rd tr w.bytes ext f := by
  refine ⟨_, physRead (applyUpdate s tr.update) tr.pa w.bytes (.data .store),
    amoTo_ok h, rfl, ?_, ?_, ?_, ?_, ?_, ?_⟩
  · exact ((State.setReg_regIs _ rd _).of_regs rfl).of_base (by simp)
  · simp [State.nextPc]
  · simp [Counted, countedInstret]
  · simp [SameSystem, SameMode, SameTrapRegs, SameControl]
  · exact (physWrite_stored hm tr w.bytes _).of_same rfl (by simp [SamePlatform]) (by simp [SameHidden])
  · intro hr
    rw [physRead_ram (by simpa using hr)]
    exact Memory.load_holds _ _ _ w.bytes_le

theorem amoTo_error {s : State} {rd : Reg} {va : Word} {w : Width} {f ext : Word → Word} {e : Exc}
    (h : resolveData s va .store w = .error e) : Traps s (amoTo s rd va w f ext) e s.pc va := by
  simp [Traps, amoTo, memAmo, h, State.raise]

/-! ## CSR instructions -/

/-- A CSR instruction whose check fails is illegal, with its own word as trap value (R383). -/
theorem csrInstr_illegal {s : State} {w : InstrWord} {rd : Reg} {a : CsrAddr} {writes : Bool} {f : Word → Word}
    (h : csrCheck s a writes = none) : csrInstr s w rd a writes f = .next (s.raiseIllegal w) := by
  simp [csrInstr, h]

/-- A CSR instruction whose check passes completes. -/
theorem csrInstr_legal {s : State} {w : InstrWord} {rd : Reg} {a : CsrAddr} {writes : Bool} {f : Word → Word}
    {c : Csr} (h : csrCheck s a writes = some c) :
    csrInstr s w rd a writes f = .next (retireCsr
      ((if writes then csrWrite s (f (csrModified s c)) c else s).setReg rd (csrRead s c)) c writes) := by
  simp [csrInstr, h]

/-- A CSR write changes no register, no pc, no mode, no memory, no platform register and no cache. -/
theorem csrWrite_frame (s : State) (v : Word) (c : Csr) :
    SameRegs s (csrWrite s v c) ∧ (csrWrite s v c).pc = s.pc ∧ (csrWrite s v c).priv = s.priv ∧
    (csrWrite s v c).mem = s.mem ∧ SamePlatform s (csrWrite s v c) ∧
    (csrWrite s v c).codeHistory = s.codeHistory ∧ (csrWrite s v c).pteHistory = s.pteHistory := by
  refine ⟨State.reg_congr (by cases c <;> rfl), ?_⟩
  cases c <;> simp [csrWrite, SamePlatform]

/-! ## Traps -/

theorem epcValue_aligned (v : Word) : (epcValue v).toNat % 4 = 0 := by
  have h : (epcValue v).extractLsb' 0 2 = 0#2 := by
    ext i hi
    have : i = 0 ∨ i = 1 := by omega
    rcases this with rfl | rfl <;> simp [epcValue, BitVec.getElem_extractLsb']
  have := congrArg BitVec.toNat h
  simpa [BitVec.extractLsb'_toNat] using this

theorem Tvec.baseAddress_aligned (t : Tvec) : t.baseAddress.toNat % 4 = 0 := by
  simp only [Tvec.baseAddress, BitVec.toNat_append]
  simp [Nat.shiftLeft_eq, Nat.mul_mod_left]

/-- The target of a trap is a multiple of 4 (R435). -/
theorem vectorTarget_aligned (b : Board) (t : Tvec) (c : Cause) : (vectorTarget b t c).toNat % 4 = 0 := by
  have hb := t.baseAddress_aligned
  have hs : (t.baseAddress + BitVec.ofNat 64 (4 * c.code)).toNat % 4 = 0 := by
    simp only [BitVec.toNat_add, BitVec.toNat_ofNat]
    omega
  unfold vectorTarget
  cases c <;> simp only <;> split <;> assumption

theorem takeTrap_pc_aligned (s : State) (c : Cause) (e v : Word) : (takeTrap s c e v).pc.toNat % 4 = 0 := by
  simpa using vectorTarget_aligned _ _ _

/-- A trap changes no register, no memory, no platform register and no cache (R430). -/
theorem takeTrap_frame (s : State) (c : Cause) (e v : Word) :
    SameRegs s (takeTrap s c e v) ∧ SamePlatform s (takeTrap s c e v) ∧ SameHidden s (takeTrap s c e v) ∧
    SameControl s (takeTrap s c e v) ∧ (takeTrap s c e v).mem = s.mem ∧
    (takeTrap s c e v).minstret = s.minstret :=
  ⟨State.reg_congr rfl, by simp [SamePlatform, SameHidden, SameControl]⟩

/-! ## Time -/

/-- mtime stays or increases between two steps, whatever the free amount (R86). -/
theorem advanceNoWrap_le (now : Word) (d : Nat) : now.toNat ≤ (advanceNoWrap now d).toNat := by
  have h1 := now.isLt
  have h2 : d % (2 ^ 64 - now.toNat) < 2 ^ 64 - now.toNat := Nat.mod_lt _ (by omega)
  simp only [advanceNoWrap, BitVec.toNat_add, BitVec.toNat_ofNat]
  omega

end Sys2Proof.Machine
end

