-- ==== Sys2Proof/Laws/Csr.lean ====
section
/-! SUPPORT. The bits of the CSRs that are put together from parts, and the class of each CSR as its number
gives it. -/

namespace Sys2Proof.Machine

/-! ## Bits -/

theorem bitAt_getLsbD (b : Bool) (n i : Nat) :
    (bitAt b n).getLsbD i = (b && decide (i = n) && decide (n < 64)) := by
  cases b
  · simp [bitAt]
  · simp only [bitAt, if_true, BitVec.getLsbD_shiftLeft, Bool.true_and]
    by_cases h : i = n
    · subst h; by_cases h2 : i < 64 <;> simp [h2]
    · by_cases h2 : i < n
      · simp [h, h2]
      · have : i - n ≠ 0 := by omega
        by_cases h64 : i < 64 <;> simp [h, BitVec.getLsbD_one, this]

theorem mpp_getLsbD (p : Priv) (i : Nat) :
    ((p.bits.setWidth 64 : Word) <<< 11).getLsbD i =
      ((decide (i = 11) && p.bits.getLsbD 0) || (decide (i = 12) && p.bits.getLsbD 1)) := by
  by_cases h : i < 64
  · cases p <;> interval_cases i <;> rfl
  · have : ((p.bits.setWidth 64 : Word) <<< 11).getLsbD i = false := BitVec.getLsbD_of_ge _ _ (by omega)
    rw [this]; simp; omega

/-- The stored bits of mstatus (R45). -/
theorem Mstatus.stored_getLsbD (m : Mstatus) (i : Nat) :
    m.stored.getLsbD i =
      ((m.tsr && decide (i = 22)) || (m.tw && decide (i = 21)) || (m.tvm && decide (i = 20)) ||
        (m.mxr && decide (i = 19)) || (m.sum && decide (i = 18)) || (m.mprv && decide (i = 17)) ||
        ((decide (i = 11) && m.mpp.bits.getLsbD 0) || (decide (i = 12) && m.mpp.bits.getLsbD 1)) ||
        (m.spp && decide (i = 8)) || (m.mpie && decide (i = 7)) || (m.spie && decide (i = 5)) ||
        (m.mie && decide (i = 3)) || (m.sie && decide (i = 1))) := by
  simp only [Mstatus.stored, BitVec.getLsbD_or, bitAt_getLsbD, mpp_getLsbD]
  simp

theorem Mstatus.value_getLsbD (m : Mstatus) (i : Nat) :
    m.value.getLsbD i = (m.stored.getLsbD i || (0x0000000F00000000#64).getLsbD i) := by
  simp only [Mstatus.value, BitVec.getLsbD_or]

theorem mstatus_tsr (s : State) : (csrRead s .mstatus).getLsbD 22 = s.mstatus.tsr := by
  simp only [csrRead, Mstatus.value_getLsbD, Mstatus.stored_getLsbD]; simp
theorem mstatus_tw (s : State) : (csrRead s .mstatus).getLsbD 21 = s.mstatus.tw := by
  simp only [csrRead, Mstatus.value_getLsbD, Mstatus.stored_getLsbD]; simp
theorem mstatus_tvm (s : State) : (csrRead s .mstatus).getLsbD 20 = s.mstatus.tvm := by
  simp only [csrRead, Mstatus.value_getLsbD, Mstatus.stored_getLsbD]; simp
theorem mstatus_mprv (s : State) : (csrRead s .mstatus).getLsbD 17 = s.mstatus.mprv := by
  simp only [csrRead, Mstatus.value_getLsbD, Mstatus.stored_getLsbD]; simp
theorem mstatus_mie (s : State) : (csrRead s .mstatus).getLsbD 3 = s.mstatus.mie := by
  simp only [csrRead, Mstatus.value_getLsbD, Mstatus.stored_getLsbD]; simp
theorem mstatus_sie (s : State) : (csrRead s .mstatus).getLsbD 1 = s.mstatus.sie := by
  simp only [csrRead, Mstatus.value_getLsbD, Mstatus.stored_getLsbD]; simp

/-- mtvec and stvec as they read (R56). -/
theorem Tvec.value_getLsbD (t : Tvec) {i : Nat} (hi : i < 64) :
    t.value.getLsbD i = if i = 0 then t.vectored else if i = 1 then false else t.base.getLsbD (i - 2) := by
  simp only [Tvec.value]
  rw [BitVec.getLsbD_append]
  by_cases h : i < 2
  · interval_cases i <;> cases t.vectored <;> simp
  · have h0 : i ≠ 0 := by omega
    have h1 : i ≠ 1 := by omega
    simp [h, h0, h1]

/-- satp as it reads (R80). -/
theorem Satp.value_getLsbD (p : Satp) {i : Nat} (hi : i < 64) :
    p.value.getLsbD i = if i < 44 then p.ppn.getLsbD i else decide (i = 63) && p.sv39 := by
  simp only [Satp.value]
  repeat rw [BitVec.getLsbD_append]
  by_cases h : i < 44
  · simp [h]
  · interval_cases i <;> cases p.sv39 <;> simp

/-! ## Classes (R31) -/

/-- The class of a CSR is what its number says: bits 9:8 the level, bits 11:10 whether it is read-only. -/
abbrev CsrClass (a : CsrAddr) (c : Csr) : Prop :=
  csrLevel c = (a.extractLsb' 8 2).toNat ∧ csrReadOnly c = decide (a.extractLsb' 10 2 = 0b11#2) ∧
  decide (c = .satp) = decide (a = 0x180#12)

theorem csrClass_of_ite {a b : CsrAddr} {c d : Csr} {x : Option Csr} (h : (if a = b then some d else x) = some c)
    (hb : CsrClass b d) (hx : x = some c → CsrClass a c) : CsrClass a c := by
  split at h
  · rename_i e; cases h; subst e; exact hb
  · exact hx h

theorem csrOf_class {a : CsrAddr} {c : Csr} (h : csrOf a = some c) : CsrClass a c := by
  unfold csrOf at h
  iterate 39 (refine csrClass_of_ite h (by decide) ?_; clear h; intro h)
  cases h

end Sys2Proof.Machine
end

