-- ==== Sys2Proof/Laws/Encoding.lean ====
section
/-! SUPPORT. The fields of an encoded instruction: each format's encoder puts each field where the decoder reads it
(spec/30_encoding.md R192, R195). -/

namespace Sys2Proof

/-! ## `encR` -/

@[simp] theorem fOpcode_encR (f7 : BitVec 7) (rs2 rs1 : BitVec 5) (f3 : BitVec 3) (rd : BitVec 5) (op : BitVec 7) :
    fOpcode (encR f7 rs2 rs1 f3 rd op) = op := by
  refine BitVec.eq_of_getLsbD_eq fun i hi => ?_
  simp only [fOpcode, encR, BitVec.getLsbD_extractLsb']
  repeat rw [BitVec.getLsbD_append]
  interval_cases i <;> simp
@[simp] theorem fRd_encR (f7 : BitVec 7) (rs2 rs1 : BitVec 5) (f3 : BitVec 3) (rd : BitVec 5) (op : BitVec 7) :
    fRd (encR f7 rs2 rs1 f3 rd op) = rd := by
  refine BitVec.eq_of_getLsbD_eq fun i hi => ?_
  simp only [fRd, encR, BitVec.getLsbD_extractLsb']
  repeat rw [BitVec.getLsbD_append]
  interval_cases i <;> simp
@[simp] theorem fFunct3_encR (f7 : BitVec 7) (rs2 rs1 : BitVec 5) (f3 : BitVec 3) (rd : BitVec 5) (op : BitVec 7) :
    fFunct3 (encR f7 rs2 rs1 f3 rd op) = f3 := by
  refine BitVec.eq_of_getLsbD_eq fun i hi => ?_
  simp only [fFunct3, encR, BitVec.getLsbD_extractLsb']
  repeat rw [BitVec.getLsbD_append]
  interval_cases i <;> simp
@[simp] theorem fRs1_encR (f7 : BitVec 7) (rs2 rs1 : BitVec 5) (f3 : BitVec 3) (rd : BitVec 5) (op : BitVec 7) :
    fRs1 (encR f7 rs2 rs1 f3 rd op) = rs1 := by
  refine BitVec.eq_of_getLsbD_eq fun i hi => ?_
  simp only [fRs1, encR, BitVec.getLsbD_extractLsb']
  repeat rw [BitVec.getLsbD_append]
  interval_cases i <;> simp
@[simp] theorem fRs2_encR (f7 : BitVec 7) (rs2 rs1 : BitVec 5) (f3 : BitVec 3) (rd : BitVec 5) (op : BitVec 7) :
    fRs2 (encR f7 rs2 rs1 f3 rd op) = rs2 := by
  refine BitVec.eq_of_getLsbD_eq fun i hi => ?_
  simp only [fRs2, encR, BitVec.getLsbD_extractLsb']
  repeat rw [BitVec.getLsbD_append]
  interval_cases i <;> simp
@[simp] theorem fFunct7_encR (f7 : BitVec 7) (rs2 rs1 : BitVec 5) (f3 : BitVec 3) (rd : BitVec 5) (op : BitVec 7) :
    fFunct7 (encR f7 rs2 rs1 f3 rd op) = f7 := by
  refine BitVec.eq_of_getLsbD_eq fun i hi => ?_
  simp only [fFunct7, encR, BitVec.getLsbD_extractLsb']
  repeat rw [BitVec.getLsbD_append]
  interval_cases i <;> simp

/-! ## `encI` -/

@[simp] theorem fOpcode_encI (imm : BitVec 12) (rs1 : BitVec 5) (f3 : BitVec 3) (rd : BitVec 5) (op : BitVec 7) :
    fOpcode (encI imm rs1 f3 rd op) = op := by
  refine BitVec.eq_of_getLsbD_eq fun i hi => ?_
  simp only [fOpcode, encI, BitVec.getLsbD_extractLsb']
  repeat rw [BitVec.getLsbD_append]
  interval_cases i <;> simp
@[simp] theorem fRd_encI (imm : BitVec 12) (rs1 : BitVec 5) (f3 : BitVec 3) (rd : BitVec 5) (op : BitVec 7) :
    fRd (encI imm rs1 f3 rd op) = rd := by
  refine BitVec.eq_of_getLsbD_eq fun i hi => ?_
  simp only [fRd, encI, BitVec.getLsbD_extractLsb']
  repeat rw [BitVec.getLsbD_append]
  interval_cases i <;> simp
@[simp] theorem fFunct3_encI (imm : BitVec 12) (rs1 : BitVec 5) (f3 : BitVec 3) (rd : BitVec 5) (op : BitVec 7) :
    fFunct3 (encI imm rs1 f3 rd op) = f3 := by
  refine BitVec.eq_of_getLsbD_eq fun i hi => ?_
  simp only [fFunct3, encI, BitVec.getLsbD_extractLsb']
  repeat rw [BitVec.getLsbD_append]
  interval_cases i <;> simp
@[simp] theorem fRs1_encI (imm : BitVec 12) (rs1 : BitVec 5) (f3 : BitVec 3) (rd : BitVec 5) (op : BitVec 7) :
    fRs1 (encI imm rs1 f3 rd op) = rs1 := by
  refine BitVec.eq_of_getLsbD_eq fun i hi => ?_
  simp only [fRs1, encI, BitVec.getLsbD_extractLsb']
  repeat rw [BitVec.getLsbD_append]
  interval_cases i <;> simp
@[simp] theorem fImmI_encI (imm : BitVec 12) (rs1 : BitVec 5) (f3 : BitVec 3) (rd : BitVec 5) (op : BitVec 7) :
    fImmI (encI imm rs1 f3 rd op) = imm := by
  refine BitVec.eq_of_getLsbD_eq fun i hi => ?_
  simp only [fImmI, encI, BitVec.getLsbD_extractLsb']
  repeat rw [BitVec.getLsbD_append]
  interval_cases i <;> simp

/-! ## `encS` -/

@[simp] theorem fOpcode_encS (imm : BitVec 12) (rs2 rs1 : BitVec 5) (f3 : BitVec 3) (op : BitVec 7) :
    fOpcode (encS imm rs2 rs1 f3 op) = op := by
  refine BitVec.eq_of_getLsbD_eq fun i hi => ?_
  simp only [fOpcode, encS, BitVec.getLsbD_extractLsb']
  repeat rw [BitVec.getLsbD_append]
  interval_cases i <;> simp
@[simp] theorem fFunct3_encS (imm : BitVec 12) (rs2 rs1 : BitVec 5) (f3 : BitVec 3) (op : BitVec 7) :
    fFunct3 (encS imm rs2 rs1 f3 op) = f3 := by
  refine BitVec.eq_of_getLsbD_eq fun i hi => ?_
  simp only [fFunct3, encS, BitVec.getLsbD_extractLsb']
  repeat rw [BitVec.getLsbD_append]
  interval_cases i <;> simp
@[simp] theorem fRs1_encS (imm : BitVec 12) (rs2 rs1 : BitVec 5) (f3 : BitVec 3) (op : BitVec 7) :
    fRs1 (encS imm rs2 rs1 f3 op) = rs1 := by
  refine BitVec.eq_of_getLsbD_eq fun i hi => ?_
  simp only [fRs1, encS, BitVec.getLsbD_extractLsb']
  repeat rw [BitVec.getLsbD_append]
  interval_cases i <;> simp
@[simp] theorem fRs2_encS (imm : BitVec 12) (rs2 rs1 : BitVec 5) (f3 : BitVec 3) (op : BitVec 7) :
    fRs2 (encS imm rs2 rs1 f3 op) = rs2 := by
  refine BitVec.eq_of_getLsbD_eq fun i hi => ?_
  simp only [fRs2, encS, BitVec.getLsbD_extractLsb']
  repeat rw [BitVec.getLsbD_append]
  interval_cases i <;> simp
@[simp] theorem fImmS_encS (imm : BitVec 12) (rs2 rs1 : BitVec 5) (f3 : BitVec 3) (op : BitVec 7) :
    fImmS (encS imm rs2 rs1 f3 op) = imm := by
  refine BitVec.eq_of_getLsbD_eq fun i hi => ?_
  simp only [fImmS, encS]
  repeat rw [BitVec.getLsbD_append]
  simp only [BitVec.getLsbD_extractLsb']
  interval_cases i <;> repeat' rw [BitVec.getLsbD_append]
  all_goals simp

/-! ## `encB` -/

@[simp] theorem fOpcode_encB (off : BitVec 13) (rs2 rs1 : BitVec 5) (f3 : BitVec 3) (op : BitVec 7) :
    fOpcode (encB off rs2 rs1 f3 op) = op := by
  refine BitVec.eq_of_getLsbD_eq fun i hi => ?_
  simp only [fOpcode, encB, BitVec.getLsbD_extractLsb']
  repeat rw [BitVec.getLsbD_append]
  interval_cases i <;> simp
@[simp] theorem fFunct3_encB (off : BitVec 13) (rs2 rs1 : BitVec 5) (f3 : BitVec 3) (op : BitVec 7) :
    fFunct3 (encB off rs2 rs1 f3 op) = f3 := by
  refine BitVec.eq_of_getLsbD_eq fun i hi => ?_
  simp only [fFunct3, encB, BitVec.getLsbD_extractLsb']
  repeat rw [BitVec.getLsbD_append]
  interval_cases i <;> simp
@[simp] theorem fRs1_encB (off : BitVec 13) (rs2 rs1 : BitVec 5) (f3 : BitVec 3) (op : BitVec 7) :
    fRs1 (encB off rs2 rs1 f3 op) = rs1 := by
  refine BitVec.eq_of_getLsbD_eq fun i hi => ?_
  simp only [fRs1, encB, BitVec.getLsbD_extractLsb']
  repeat rw [BitVec.getLsbD_append]
  interval_cases i <;> simp
@[simp] theorem fRs2_encB (off : BitVec 13) (rs2 rs1 : BitVec 5) (f3 : BitVec 3) (op : BitVec 7) :
    fRs2 (encB off rs2 rs1 f3 op) = rs2 := by
  refine BitVec.eq_of_getLsbD_eq fun i hi => ?_
  simp only [fRs2, encB, BitVec.getLsbD_extractLsb']
  repeat rw [BitVec.getLsbD_append]
  interval_cases i <;> simp

/-! ## `encU` -/

@[simp] theorem fOpcode_encU (imm : BitVec 20) (rd : BitVec 5) (op : BitVec 7) :
    fOpcode (encU imm rd op) = op := by
  refine BitVec.eq_of_getLsbD_eq fun i hi => ?_
  simp only [fOpcode, encU, BitVec.getLsbD_extractLsb']
  repeat rw [BitVec.getLsbD_append]
  interval_cases i <;> simp
@[simp] theorem fRd_encU (imm : BitVec 20) (rd : BitVec 5) (op : BitVec 7) :
    fRd (encU imm rd op) = rd := by
  refine BitVec.eq_of_getLsbD_eq fun i hi => ?_
  simp only [fRd, encU, BitVec.getLsbD_extractLsb']
  repeat rw [BitVec.getLsbD_append]
  interval_cases i <;> simp
@[simp] theorem fImmU_encU (imm : BitVec 20) (rd : BitVec 5) (op : BitVec 7) :
    fImmU (encU imm rd op) = imm := by
  refine BitVec.eq_of_getLsbD_eq fun i hi => ?_
  simp only [fImmU, encU, BitVec.getLsbD_extractLsb']
  repeat rw [BitVec.getLsbD_append]
  interval_cases i <;> simp

/-! ## `encJ` -/

@[simp] theorem fOpcode_encJ (off : BitVec 21) (rd : BitVec 5) (op : BitVec 7) :
    fOpcode (encJ off rd op) = op := by
  refine BitVec.eq_of_getLsbD_eq fun i hi => ?_
  simp only [fOpcode, encJ, BitVec.getLsbD_extractLsb']
  repeat rw [BitVec.getLsbD_append]
  interval_cases i <;> simp
@[simp] theorem fRd_encJ (off : BitVec 21) (rd : BitVec 5) (op : BitVec 7) :
    fRd (encJ off rd op) = rd := by
  refine BitVec.eq_of_getLsbD_eq fun i hi => ?_
  simp only [fRd, encJ, BitVec.getLsbD_extractLsb']
  repeat rw [BitVec.getLsbD_append]
  interval_cases i <;> simp

/-! ## `encSh6` -/

@[simp] theorem fOpcode_encSh6 (f6 shamt : BitVec 6) (rs1 : BitVec 5) (f3 : BitVec 3) (rd : BitVec 5) (op : BitVec 7) :
    fOpcode (encSh6 f6 shamt rs1 f3 rd op) = op := by
  refine BitVec.eq_of_getLsbD_eq fun i hi => ?_
  simp only [fOpcode, encSh6, BitVec.getLsbD_extractLsb']
  repeat rw [BitVec.getLsbD_append]
  interval_cases i <;> simp
@[simp] theorem fRd_encSh6 (f6 shamt : BitVec 6) (rs1 : BitVec 5) (f3 : BitVec 3) (rd : BitVec 5) (op : BitVec 7) :
    fRd (encSh6 f6 shamt rs1 f3 rd op) = rd := by
  refine BitVec.eq_of_getLsbD_eq fun i hi => ?_
  simp only [fRd, encSh6, BitVec.getLsbD_extractLsb']
  repeat rw [BitVec.getLsbD_append]
  interval_cases i <;> simp
@[simp] theorem fFunct3_encSh6 (f6 shamt : BitVec 6) (rs1 : BitVec 5) (f3 : BitVec 3) (rd : BitVec 5) (op : BitVec 7) :
    fFunct3 (encSh6 f6 shamt rs1 f3 rd op) = f3 := by
  refine BitVec.eq_of_getLsbD_eq fun i hi => ?_
  simp only [fFunct3, encSh6, BitVec.getLsbD_extractLsb']
  repeat rw [BitVec.getLsbD_append]
  interval_cases i <;> simp
@[simp] theorem fRs1_encSh6 (f6 shamt : BitVec 6) (rs1 : BitVec 5) (f3 : BitVec 3) (rd : BitVec 5) (op : BitVec 7) :
    fRs1 (encSh6 f6 shamt rs1 f3 rd op) = rs1 := by
  refine BitVec.eq_of_getLsbD_eq fun i hi => ?_
  simp only [fRs1, encSh6, BitVec.getLsbD_extractLsb']
  repeat rw [BitVec.getLsbD_append]
  interval_cases i <;> simp
@[simp] theorem fShamt6_encSh6 (f6 shamt : BitVec 6) (rs1 : BitVec 5) (f3 : BitVec 3) (rd : BitVec 5) (op : BitVec 7) :
    fShamt6 (encSh6 f6 shamt rs1 f3 rd op) = shamt := by
  refine BitVec.eq_of_getLsbD_eq fun i hi => ?_
  simp only [fShamt6, encSh6, BitVec.getLsbD_extractLsb']
  repeat rw [BitVec.getLsbD_append]
  interval_cases i <;> simp
@[simp] theorem fFunct6_encSh6 (f6 shamt : BitVec 6) (rs1 : BitVec 5) (f3 : BitVec 3) (rd : BitVec 5) (op : BitVec 7) :
    fFunct6 (encSh6 f6 shamt rs1 f3 rd op) = f6 := by
  refine BitVec.eq_of_getLsbD_eq fun i hi => ?_
  simp only [fFunct6, encSh6, BitVec.getLsbD_extractLsb']
  repeat rw [BitVec.getLsbD_append]
  interval_cases i <;> simp

/-! ## `encA` -/

@[simp] theorem fOpcode_encA (f5 : BitVec 5) (aq rl : BitVec 1) (rs2 rs1 : BitVec 5) (f3 : BitVec 3) (rd : BitVec 5) :
    fOpcode (encA f5 aq rl rs2 rs1 f3 rd) = 0x2F#7 := by
  refine BitVec.eq_of_getLsbD_eq fun i hi => ?_
  simp only [fOpcode, encA, BitVec.getLsbD_extractLsb']
  repeat rw [BitVec.getLsbD_append]
  interval_cases i <;> simp
@[simp] theorem fRd_encA (f5 : BitVec 5) (aq rl : BitVec 1) (rs2 rs1 : BitVec 5) (f3 : BitVec 3) (rd : BitVec 5) :
    fRd (encA f5 aq rl rs2 rs1 f3 rd) = rd := by
  refine BitVec.eq_of_getLsbD_eq fun i hi => ?_
  simp only [fRd, encA, BitVec.getLsbD_extractLsb']
  repeat rw [BitVec.getLsbD_append]
  interval_cases i <;> simp
@[simp] theorem fFunct3_encA (f5 : BitVec 5) (aq rl : BitVec 1) (rs2 rs1 : BitVec 5) (f3 : BitVec 3) (rd : BitVec 5) :
    fFunct3 (encA f5 aq rl rs2 rs1 f3 rd) = f3 := by
  refine BitVec.eq_of_getLsbD_eq fun i hi => ?_
  simp only [fFunct3, encA, BitVec.getLsbD_extractLsb']
  repeat rw [BitVec.getLsbD_append]
  interval_cases i <;> simp
@[simp] theorem fRs1_encA (f5 : BitVec 5) (aq rl : BitVec 1) (rs2 rs1 : BitVec 5) (f3 : BitVec 3) (rd : BitVec 5) :
    fRs1 (encA f5 aq rl rs2 rs1 f3 rd) = rs1 := by
  refine BitVec.eq_of_getLsbD_eq fun i hi => ?_
  simp only [fRs1, encA, BitVec.getLsbD_extractLsb']
  repeat rw [BitVec.getLsbD_append]
  interval_cases i <;> simp
@[simp] theorem fRs2_encA (f5 : BitVec 5) (aq rl : BitVec 1) (rs2 rs1 : BitVec 5) (f3 : BitVec 3) (rd : BitVec 5) :
    fRs2 (encA f5 aq rl rs2 rs1 f3 rd) = rs2 := by
  refine BitVec.eq_of_getLsbD_eq fun i hi => ?_
  simp only [fRs2, encA, BitVec.getLsbD_extractLsb']
  repeat rw [BitVec.getLsbD_append]
  interval_cases i <;> simp
@[simp] theorem fFunct5_encA (f5 : BitVec 5) (aq rl : BitVec 1) (rs2 rs1 : BitVec 5) (f3 : BitVec 3) (rd : BitVec 5) :
    fFunct5 (encA f5 aq rl rs2 rs1 f3 rd) = f5 := by
  refine BitVec.eq_of_getLsbD_eq fun i hi => ?_
  simp only [fFunct5, encA, BitVec.getLsbD_extractLsb']
  repeat rw [BitVec.getLsbD_append]
  interval_cases i <;> simp
@[simp] theorem fAq_encA (f5 : BitVec 5) (aq rl : BitVec 1) (rs2 rs1 : BitVec 5) (f3 : BitVec 3) (rd : BitVec 5) :
    fAq (encA f5 aq rl rs2 rs1 f3 rd) = aq := by
  refine BitVec.eq_of_getLsbD_eq fun i hi => ?_
  simp only [fAq, encA, BitVec.getLsbD_extractLsb']
  repeat rw [BitVec.getLsbD_append]
  interval_cases i <;> simp
@[simp] theorem fRl_encA (f5 : BitVec 5) (aq rl : BitVec 1) (rs2 rs1 : BitVec 5) (f3 : BitVec 3) (rd : BitVec 5) :
    fRl (encA f5 aq rl rs2 rs1 f3 rd) = rl := by
  refine BitVec.eq_of_getLsbD_eq fun i hi => ?_
  simp only [fRl, encA, BitVec.getLsbD_extractLsb']
  repeat rw [BitVec.getLsbD_append]
  interval_cases i <;> simp

/-! ## `encF` -/

@[simp] theorem fOpcode_encF (fm pred succ : BitVec 4) (rs1 rd : BitVec 5) :
    fOpcode (encF fm pred succ rs1 rd) = 0x0F#7 := by
  refine BitVec.eq_of_getLsbD_eq fun i hi => ?_
  simp only [fOpcode, encF, BitVec.getLsbD_extractLsb']
  repeat rw [BitVec.getLsbD_append]
  interval_cases i <;> simp
@[simp] theorem fRd_encF (fm pred succ : BitVec 4) (rs1 rd : BitVec 5) :
    fRd (encF fm pred succ rs1 rd) = rd := by
  refine BitVec.eq_of_getLsbD_eq fun i hi => ?_
  simp only [fRd, encF, BitVec.getLsbD_extractLsb']
  repeat rw [BitVec.getLsbD_append]
  interval_cases i <;> simp
@[simp] theorem fFunct3_encF (fm pred succ : BitVec 4) (rs1 rd : BitVec 5) :
    fFunct3 (encF fm pred succ rs1 rd) = 0x0#3 := by
  refine BitVec.eq_of_getLsbD_eq fun i hi => ?_
  simp only [fFunct3, encF, BitVec.getLsbD_extractLsb']
  repeat rw [BitVec.getLsbD_append]
  interval_cases i <;> simp
@[simp] theorem fRs1_encF (fm pred succ : BitVec 4) (rs1 rd : BitVec 5) :
    fRs1 (encF fm pred succ rs1 rd) = rs1 := by
  refine BitVec.eq_of_getLsbD_eq fun i hi => ?_
  simp only [fRs1, encF, BitVec.getLsbD_extractLsb']
  repeat rw [BitVec.getLsbD_append]
  interval_cases i <;> simp
@[simp] theorem fFm_encF (fm pred succ : BitVec 4) (rs1 rd : BitVec 5) :
    fFm (encF fm pred succ rs1 rd) = fm := by
  refine BitVec.eq_of_getLsbD_eq fun i hi => ?_
  simp only [fFm, encF, BitVec.getLsbD_extractLsb']
  repeat rw [BitVec.getLsbD_append]
  interval_cases i <;> simp
@[simp] theorem fPred_encF (fm pred succ : BitVec 4) (rs1 rd : BitVec 5) :
    fPred (encF fm pred succ rs1 rd) = pred := by
  refine BitVec.eq_of_getLsbD_eq fun i hi => ?_
  simp only [fPred, encF, BitVec.getLsbD_extractLsb']
  repeat rw [BitVec.getLsbD_append]
  interval_cases i <;> simp
@[simp] theorem fSucc_encF (fm pred succ : BitVec 4) (rs1 rd : BitVec 5) :
    fSucc (encF fm pred succ rs1 rd) = succ := by
  refine BitVec.eq_of_getLsbD_eq fun i hi => ?_
  simp only [fSucc, encF, BitVec.getLsbD_extractLsb']
  repeat rw [BitVec.getLsbD_append]
  interval_cases i <;> simp

/-- An even offset is what the B format gives back. -/
theorem fImmB_encB {off : BitVec 13} (h : off.getLsbD 0 = false) (rs2 rs1 : BitVec 5) (f3 : BitVec 3)
    (op : BitVec 7) : fImmB (encB off rs2 rs1 f3 op) = off := by
  refine BitVec.eq_of_getLsbD_eq fun i hi => ?_
  have h0 : off[0] = false := (BitVec.getLsbD_eq_getElem (by decide)).symm.trans h
  simp only [fImmB, encB]
  repeat rw [BitVec.getLsbD_append]
  simp only [BitVec.getLsbD_extractLsb']
  interval_cases i <;> repeat' rw [BitVec.getLsbD_append]
  all_goals simp [h0]

/-- An even offset is what the J format gives back. -/
theorem fImmJ_encJ {off : BitVec 21} (h : off.getLsbD 0 = false) (rd : BitVec 5) (op : BitVec 7) :
    fImmJ (encJ off rd op) = off := by
  refine BitVec.eq_of_getLsbD_eq fun i hi => ?_
  have h0 : off[0] = false := (BitVec.getLsbD_eq_getElem (by decide)).symm.trans h
  simp only [fImmJ, encJ]
  repeat rw [BitVec.getLsbD_append]
  simp only [BitVec.getLsbD_extractLsb']
  interval_cases i <;> repeat' rw [BitVec.getLsbD_append]
  all_goals simp [h0]

end Sys2Proof
end

