-- ==== Sys2Proof/Laws/PerInstr.lean ====
section
/-! SUPPORT. Statements about every instruction, one lemma per constructor. `RowEncoding`: the word an instruction
encodes to is a word of its row of spec/opcode_table.json (spec/30_encoding.md R201). -/

namespace Sys2Proof.Laws

/-! ## The fixed bits of each format -/

theorem encR_row (f7 : BitVec 7) (rs2 rs1 : BitVec 5) (f3 : BitVec 3) (rd : BitVec 5) (op : BitVec 7) :
    encR f7 rs2 rs1 f3 rd op &&& 0xFE00707F#32 = encR f7 0#5 0#5 f3 0#5 op := by
  refine BitVec.eq_of_getLsbD_eq fun i hi => ?_
  simp only [encR, BitVec.getLsbD_and]
  repeat rw [BitVec.getLsbD_append]
  interval_cases i <;> simp

theorem encI_row (imm : BitVec 12) (rs1 : BitVec 5) (f3 : BitVec 3) (rd : BitVec 5) (op : BitVec 7) :
    encI imm rs1 f3 rd op &&& 0x0000707F#32 = encI 0#12 0#5 f3 0#5 op := by
  refine BitVec.eq_of_getLsbD_eq fun i hi => ?_
  simp only [encI, BitVec.getLsbD_and]
  repeat rw [BitVec.getLsbD_append]
  interval_cases i <;> simp

theorem encS_row (imm : BitVec 12) (rs2 rs1 : BitVec 5) (f3 : BitVec 3) (op : BitVec 7) :
    encS imm rs2 rs1 f3 op &&& 0x0000707F#32 = encS 0#12 0#5 0#5 f3 op := by
  refine BitVec.eq_of_getLsbD_eq fun i hi => ?_
  simp only [encS, BitVec.getLsbD_and]
  repeat rw [BitVec.getLsbD_append]
  interval_cases i <;> simp

theorem encB_row (off : BitVec 13) (rs2 rs1 : BitVec 5) (f3 : BitVec 3) (op : BitVec 7) :
    encB off rs2 rs1 f3 op &&& 0x0000707F#32 = encB 0#13 0#5 0#5 f3 op := by
  refine BitVec.eq_of_getLsbD_eq fun i hi => ?_
  simp only [encB, BitVec.getLsbD_and]
  repeat rw [BitVec.getLsbD_append]
  interval_cases i <;> simp

theorem encU_row (imm : BitVec 20) (rd : BitVec 5) (op : BitVec 7) :
    encU imm rd op &&& 0x0000007F#32 = encU 0#20 0#5 op := by
  refine BitVec.eq_of_getLsbD_eq fun i hi => ?_
  simp only [encU, BitVec.getLsbD_and]
  repeat rw [BitVec.getLsbD_append]
  interval_cases i <;> simp

theorem encJ_row (off : BitVec 21) (rd : BitVec 5) (op : BitVec 7) :
    encJ off rd op &&& 0x0000007F#32 = encJ 0#21 0#5 op := by
  refine BitVec.eq_of_getLsbD_eq fun i hi => ?_
  simp only [encJ, BitVec.getLsbD_and]
  repeat rw [BitVec.getLsbD_append]
  interval_cases i <;> simp

theorem encSh6_row (f6 shamt : BitVec 6) (rs1 : BitVec 5) (f3 : BitVec 3) (rd : BitVec 5) (op : BitVec 7) :
    encSh6 f6 shamt rs1 f3 rd op &&& 0xFC00707F#32 = encSh6 f6 0#6 0#5 f3 0#5 op := by
  refine BitVec.eq_of_getLsbD_eq fun i hi => ?_
  simp only [encSh6, BitVec.getLsbD_and]
  repeat rw [BitVec.getLsbD_append]
  interval_cases i <;> simp

theorem encA_row (f5 : BitVec 5) (aq rl : BitVec 1) (rs2 rs1 : BitVec 5) (f3 : BitVec 3) (rd : BitVec 5) :
    encA f5 aq rl rs2 rs1 f3 rd &&& 0xF800707F#32 = encA f5 0#1 0#1 0#5 0#5 f3 0#5 := by
  refine BitVec.eq_of_getLsbD_eq fun i hi => ?_
  simp only [encA, BitVec.getLsbD_and]
  repeat rw [BitVec.getLsbD_append]
  interval_cases i <;> simp

theorem encF_row (fm pred succ : BitVec 4) (rs1 rd : BitVec 5) :
    encF fm pred succ rs1 rd &&& 0x0000707F#32 = encF 0#4 0#4 0#4 0#5 0#5 := by
  refine BitVec.eq_of_getLsbD_eq fun i hi => ?_
  simp only [encF, BitVec.getLsbD_and]
  repeat rw [BitVec.getLsbD_append]
  interval_cases i <;> simp

theorem encA_lr_row (aq rl : BitVec 1) (rs1 : BitVec 5) (f3 : BitVec 3) (rd : BitVec 5) :
    encA 0x2#5 aq rl 0#5 rs1 f3 rd &&& 0xF9F0707F#32 = encA 0x2#5 0#1 0#1 0#5 0#5 f3 0#5 := by
  refine BitVec.eq_of_getLsbD_eq fun i hi => ?_
  simp only [encA, BitVec.getLsbD_and]
  repeat rw [BitVec.getLsbD_append]
  interval_cases i <;> simp

theorem encR_sfence_row (rs2 rs1 : BitVec 5) :
    encR 0x09#7 rs2 rs1 0x0#3 0x00#5 0x73#7 &&& 0xFE007FFF#32 = encR 0x09#7 0#5 0#5 0x0#3 0#5 0x73#7 := by
  refine BitVec.eq_of_getLsbD_eq fun i hi => ?_
  simp only [encR, BitVec.getLsbD_and]
  repeat rw [BitVec.getLsbD_append]
  interval_cases i <;> simp

/-! ## One lemma per instruction -/

/-- The word of an instruction is a word of its row. -/
def RowEncoding.Statement (i : Instr) : Prop := i.rowMatches (encode i)

theorem RowEncoding.lui (rd : Reg) (imm : BitVec 20) :
    RowEncoding.Statement (.lui rd imm) := (encU_row ..).trans rfl
theorem RowEncoding.auipc (rd : Reg) (imm : BitVec 20) :
    RowEncoding.Statement (.auipc rd imm) := (encU_row ..).trans rfl
theorem RowEncoding.addi (rd rs1 : Reg) (imm : BitVec 12) :
    RowEncoding.Statement (.addi rd rs1 imm) := (encI_row ..).trans rfl
theorem RowEncoding.slti (rd rs1 : Reg) (imm : BitVec 12) :
    RowEncoding.Statement (.slti rd rs1 imm) := (encI_row ..).trans rfl
theorem RowEncoding.sltiu (rd rs1 : Reg) (imm : BitVec 12) :
    RowEncoding.Statement (.sltiu rd rs1 imm) := (encI_row ..).trans rfl
theorem RowEncoding.andi (rd rs1 : Reg) (imm : BitVec 12) :
    RowEncoding.Statement (.andi rd rs1 imm) := (encI_row ..).trans rfl
theorem RowEncoding.ori (rd rs1 : Reg) (imm : BitVec 12) :
    RowEncoding.Statement (.ori rd rs1 imm) := (encI_row ..).trans rfl
theorem RowEncoding.xori (rd rs1 : Reg) (imm : BitVec 12) :
    RowEncoding.Statement (.xori rd rs1 imm) := (encI_row ..).trans rfl
theorem RowEncoding.slli (rd rs1 : Reg) (shamt : BitVec 6) :
    RowEncoding.Statement (.slli rd rs1 shamt) := (encSh6_row ..).trans rfl
theorem RowEncoding.srli (rd rs1 : Reg) (shamt : BitVec 6) :
    RowEncoding.Statement (.srli rd rs1 shamt) := (encSh6_row ..).trans rfl
theorem RowEncoding.srai (rd rs1 : Reg) (shamt : BitVec 6) :
    RowEncoding.Statement (.srai rd rs1 shamt) := (encSh6_row ..).trans rfl
theorem RowEncoding.add (rd rs1 rs2 : Reg) :
    RowEncoding.Statement (.add rd rs1 rs2) := (encR_row ..).trans rfl
theorem RowEncoding.sub (rd rs1 rs2 : Reg) :
    RowEncoding.Statement (.sub rd rs1 rs2) := (encR_row ..).trans rfl
theorem RowEncoding.slt (rd rs1 rs2 : Reg) :
    RowEncoding.Statement (.slt rd rs1 rs2) := (encR_row ..).trans rfl
theorem RowEncoding.sltu (rd rs1 rs2 : Reg) :
    RowEncoding.Statement (.sltu rd rs1 rs2) := (encR_row ..).trans rfl
theorem RowEncoding.and (rd rs1 rs2 : Reg) :
    RowEncoding.Statement (.and rd rs1 rs2) := (encR_row ..).trans rfl
theorem RowEncoding.or (rd rs1 rs2 : Reg) :
    RowEncoding.Statement (.or rd rs1 rs2) := (encR_row ..).trans rfl
theorem RowEncoding.xor (rd rs1 rs2 : Reg) :
    RowEncoding.Statement (.xor rd rs1 rs2) := (encR_row ..).trans rfl
theorem RowEncoding.sll (rd rs1 rs2 : Reg) :
    RowEncoding.Statement (.sll rd rs1 rs2) := (encR_row ..).trans rfl
theorem RowEncoding.srl (rd rs1 rs2 : Reg) :
    RowEncoding.Statement (.srl rd rs1 rs2) := (encR_row ..).trans rfl
theorem RowEncoding.sra (rd rs1 rs2 : Reg) :
    RowEncoding.Statement (.sra rd rs1 rs2) := (encR_row ..).trans rfl
theorem RowEncoding.jal (rd : Reg) (off : BitVec 21) :
    RowEncoding.Statement (.jal rd off) := (encJ_row ..).trans rfl
theorem RowEncoding.jalr (rd rs1 : Reg) (imm : BitVec 12) :
    RowEncoding.Statement (.jalr rd rs1 imm) := (encI_row ..).trans rfl
theorem RowEncoding.beq (rs1 rs2 : Reg) (off : BitVec 13) :
    RowEncoding.Statement (.beq rs1 rs2 off) := (encB_row ..).trans rfl
theorem RowEncoding.bne (rs1 rs2 : Reg) (off : BitVec 13) :
    RowEncoding.Statement (.bne rs1 rs2 off) := (encB_row ..).trans rfl
theorem RowEncoding.blt (rs1 rs2 : Reg) (off : BitVec 13) :
    RowEncoding.Statement (.blt rs1 rs2 off) := (encB_row ..).trans rfl
theorem RowEncoding.bltu (rs1 rs2 : Reg) (off : BitVec 13) :
    RowEncoding.Statement (.bltu rs1 rs2 off) := (encB_row ..).trans rfl
theorem RowEncoding.bge (rs1 rs2 : Reg) (off : BitVec 13) :
    RowEncoding.Statement (.bge rs1 rs2 off) := (encB_row ..).trans rfl
theorem RowEncoding.bgeu (rs1 rs2 : Reg) (off : BitVec 13) :
    RowEncoding.Statement (.bgeu rs1 rs2 off) := (encB_row ..).trans rfl
theorem RowEncoding.lb (rd rs1 : Reg) (imm : BitVec 12) :
    RowEncoding.Statement (.lb rd rs1 imm) := (encI_row ..).trans rfl
theorem RowEncoding.lbu (rd rs1 : Reg) (imm : BitVec 12) :
    RowEncoding.Statement (.lbu rd rs1 imm) := (encI_row ..).trans rfl
theorem RowEncoding.lh (rd rs1 : Reg) (imm : BitVec 12) :
    RowEncoding.Statement (.lh rd rs1 imm) := (encI_row ..).trans rfl
theorem RowEncoding.lhu (rd rs1 : Reg) (imm : BitVec 12) :
    RowEncoding.Statement (.lhu rd rs1 imm) := (encI_row ..).trans rfl
theorem RowEncoding.lw (rd rs1 : Reg) (imm : BitVec 12) :
    RowEncoding.Statement (.lw rd rs1 imm) := (encI_row ..).trans rfl
theorem RowEncoding.lwu (rd rs1 : Reg) (imm : BitVec 12) :
    RowEncoding.Statement (.lwu rd rs1 imm) := (encI_row ..).trans rfl
theorem RowEncoding.ld (rd rs1 : Reg) (imm : BitVec 12) :
    RowEncoding.Statement (.ld rd rs1 imm) := (encI_row ..).trans rfl
theorem RowEncoding.sb (rs1 rs2 : Reg) (imm : BitVec 12) :
    RowEncoding.Statement (.sb rs1 rs2 imm) := (encS_row ..).trans rfl
theorem RowEncoding.sh (rs1 rs2 : Reg) (imm : BitVec 12) :
    RowEncoding.Statement (.sh rs1 rs2 imm) := (encS_row ..).trans rfl
theorem RowEncoding.sw (rs1 rs2 : Reg) (imm : BitVec 12) :
    RowEncoding.Statement (.sw rs1 rs2 imm) := (encS_row ..).trans rfl
theorem RowEncoding.sd (rs1 rs2 : Reg) (imm : BitVec 12) :
    RowEncoding.Statement (.sd rs1 rs2 imm) := (encS_row ..).trans rfl
theorem RowEncoding.addiw (rd rs1 : Reg) (imm : BitVec 12) :
    RowEncoding.Statement (.addiw rd rs1 imm) := (encI_row ..).trans rfl
theorem RowEncoding.slliw (rd rs1 : Reg) (shamt : BitVec 5) :
    RowEncoding.Statement (.slliw rd rs1 shamt) := (encR_row ..).trans rfl
theorem RowEncoding.srliw (rd rs1 : Reg) (shamt : BitVec 5) :
    RowEncoding.Statement (.srliw rd rs1 shamt) := (encR_row ..).trans rfl
theorem RowEncoding.sraiw (rd rs1 : Reg) (shamt : BitVec 5) :
    RowEncoding.Statement (.sraiw rd rs1 shamt) := (encR_row ..).trans rfl
theorem RowEncoding.addw (rd rs1 rs2 : Reg) :
    RowEncoding.Statement (.addw rd rs1 rs2) := (encR_row ..).trans rfl
theorem RowEncoding.subw (rd rs1 rs2 : Reg) :
    RowEncoding.Statement (.subw rd rs1 rs2) := (encR_row ..).trans rfl
theorem RowEncoding.sllw (rd rs1 rs2 : Reg) :
    RowEncoding.Statement (.sllw rd rs1 rs2) := (encR_row ..).trans rfl
theorem RowEncoding.srlw (rd rs1 rs2 : Reg) :
    RowEncoding.Statement (.srlw rd rs1 rs2) := (encR_row ..).trans rfl
theorem RowEncoding.sraw (rd rs1 rs2 : Reg) :
    RowEncoding.Statement (.sraw rd rs1 rs2) := (encR_row ..).trans rfl
theorem RowEncoding.fence (fm pred succ : BitVec 4) (rd rs1 : Reg) :
    RowEncoding.Statement (.fence fm pred succ rd rs1) := (encF_row ..).trans rfl
theorem RowEncoding.fenceI (imm : BitVec 12) (rd rs1 : Reg) :
    RowEncoding.Statement (.fenceI imm rd rs1) := (encI_row ..).trans rfl
theorem RowEncoding.amoswapW (aq rl : BitVec 1) (rd rs1 rs2 : Reg) :
    RowEncoding.Statement (.amoswapW aq rl rd rs1 rs2) := (encA_row ..).trans rfl
theorem RowEncoding.amoswapD (aq rl : BitVec 1) (rd rs1 rs2 : Reg) :
    RowEncoding.Statement (.amoswapD aq rl rd rs1 rs2) := (encA_row ..).trans rfl
theorem RowEncoding.amoaddW (aq rl : BitVec 1) (rd rs1 rs2 : Reg) :
    RowEncoding.Statement (.amoaddW aq rl rd rs1 rs2) := (encA_row ..).trans rfl
theorem RowEncoding.amoaddD (aq rl : BitVec 1) (rd rs1 rs2 : Reg) :
    RowEncoding.Statement (.amoaddD aq rl rd rs1 rs2) := (encA_row ..).trans rfl
theorem RowEncoding.amoandW (aq rl : BitVec 1) (rd rs1 rs2 : Reg) :
    RowEncoding.Statement (.amoandW aq rl rd rs1 rs2) := (encA_row ..).trans rfl
theorem RowEncoding.amoandD (aq rl : BitVec 1) (rd rs1 rs2 : Reg) :
    RowEncoding.Statement (.amoandD aq rl rd rs1 rs2) := (encA_row ..).trans rfl
theorem RowEncoding.amoorW (aq rl : BitVec 1) (rd rs1 rs2 : Reg) :
    RowEncoding.Statement (.amoorW aq rl rd rs1 rs2) := (encA_row ..).trans rfl
theorem RowEncoding.amoorD (aq rl : BitVec 1) (rd rs1 rs2 : Reg) :
    RowEncoding.Statement (.amoorD aq rl rd rs1 rs2) := (encA_row ..).trans rfl
theorem RowEncoding.amoxorW (aq rl : BitVec 1) (rd rs1 rs2 : Reg) :
    RowEncoding.Statement (.amoxorW aq rl rd rs1 rs2) := (encA_row ..).trans rfl
theorem RowEncoding.amoxorD (aq rl : BitVec 1) (rd rs1 rs2 : Reg) :
    RowEncoding.Statement (.amoxorD aq rl rd rs1 rs2) := (encA_row ..).trans rfl
theorem RowEncoding.amomaxW (aq rl : BitVec 1) (rd rs1 rs2 : Reg) :
    RowEncoding.Statement (.amomaxW aq rl rd rs1 rs2) := (encA_row ..).trans rfl
theorem RowEncoding.amomaxD (aq rl : BitVec 1) (rd rs1 rs2 : Reg) :
    RowEncoding.Statement (.amomaxD aq rl rd rs1 rs2) := (encA_row ..).trans rfl
theorem RowEncoding.amominW (aq rl : BitVec 1) (rd rs1 rs2 : Reg) :
    RowEncoding.Statement (.amominW aq rl rd rs1 rs2) := (encA_row ..).trans rfl
theorem RowEncoding.amominD (aq rl : BitVec 1) (rd rs1 rs2 : Reg) :
    RowEncoding.Statement (.amominD aq rl rd rs1 rs2) := (encA_row ..).trans rfl
theorem RowEncoding.amomaxuW (aq rl : BitVec 1) (rd rs1 rs2 : Reg) :
    RowEncoding.Statement (.amomaxuW aq rl rd rs1 rs2) := (encA_row ..).trans rfl
theorem RowEncoding.amomaxuD (aq rl : BitVec 1) (rd rs1 rs2 : Reg) :
    RowEncoding.Statement (.amomaxuD aq rl rd rs1 rs2) := (encA_row ..).trans rfl
theorem RowEncoding.amominuW (aq rl : BitVec 1) (rd rs1 rs2 : Reg) :
    RowEncoding.Statement (.amominuW aq rl rd rs1 rs2) := (encA_row ..).trans rfl
theorem RowEncoding.amominuD (aq rl : BitVec 1) (rd rs1 rs2 : Reg) :
    RowEncoding.Statement (.amominuD aq rl rd rs1 rs2) := (encA_row ..).trans rfl
theorem RowEncoding.lrW (aq rl : BitVec 1) (rd rs1 : Reg) :
    RowEncoding.Statement (.lrW aq rl rd rs1) := (encA_lr_row ..).trans rfl
theorem RowEncoding.lrD (aq rl : BitVec 1) (rd rs1 : Reg) :
    RowEncoding.Statement (.lrD aq rl rd rs1) := (encA_lr_row ..).trans rfl
theorem RowEncoding.scW (aq rl : BitVec 1) (rd rs1 rs2 : Reg) :
    RowEncoding.Statement (.scW aq rl rd rs1 rs2) := (encA_row ..).trans rfl
theorem RowEncoding.scD (aq rl : BitVec 1) (rd rs1 rs2 : Reg) :
    RowEncoding.Statement (.scD aq rl rd rs1 rs2) := (encA_row ..).trans rfl
theorem RowEncoding.ecall :
    RowEncoding.Statement .ecall := show encode .ecall &&& Instr.rowMask .ecall = Instr.rowMatch .ecall by decide
theorem RowEncoding.ebreak :
    RowEncoding.Statement .ebreak := show encode .ebreak &&& Instr.rowMask .ebreak = Instr.rowMatch .ebreak by decide
theorem RowEncoding.csrrw (rd : Reg) (csr : CsrAddr) (rs1 : Reg) :
    RowEncoding.Statement (.csrrw rd csr rs1) := (encI_row ..).trans rfl
theorem RowEncoding.csrrs (rd : Reg) (csr : CsrAddr) (rs1 : Reg) :
    RowEncoding.Statement (.csrrs rd csr rs1) := (encI_row ..).trans rfl
theorem RowEncoding.csrrc (rd : Reg) (csr : CsrAddr) (rs1 : Reg) :
    RowEncoding.Statement (.csrrc rd csr rs1) := (encI_row ..).trans rfl
theorem RowEncoding.csrrwi (rd : Reg) (csr : CsrAddr) (uimm : BitVec 5) :
    RowEncoding.Statement (.csrrwi rd csr uimm) := (encI_row ..).trans rfl
theorem RowEncoding.csrrsi (rd : Reg) (csr : CsrAddr) (uimm : BitVec 5) :
    RowEncoding.Statement (.csrrsi rd csr uimm) := (encI_row ..).trans rfl
theorem RowEncoding.csrrci (rd : Reg) (csr : CsrAddr) (uimm : BitVec 5) :
    RowEncoding.Statement (.csrrci rd csr uimm) := (encI_row ..).trans rfl
theorem RowEncoding.mret :
    RowEncoding.Statement .mret := show encode .mret &&& Instr.rowMask .mret = Instr.rowMatch .mret by decide
theorem RowEncoding.sret :
    RowEncoding.Statement .sret := show encode .sret &&& Instr.rowMask .sret = Instr.rowMatch .sret by decide
theorem RowEncoding.sfenceVma (rs1 rs2 : Reg) :
    RowEncoding.Statement (.sfenceVma rs1 rs2) := (encR_sfence_row ..).trans rfl
theorem RowEncoding.wfi :
    RowEncoding.Statement .wfi := show encode .wfi &&& Instr.rowMask .wfi = Instr.rowMatch .wfi by decide

end Sys2Proof.Laws
end

