-- ==== Sys2Proof/Laws/Translate.lean ====
section
/-! SUPPORT. What a walk may draw (spec/20_memory.md R154, U7): a version picked is the current one or an older one,
and an older page-table entry that `sameOutcome` leaves out would have led to the same outcome. -/

namespace Sys2Proof.Machine

/-- What `pickVersion` answers is the current value or one of the older ones. -/
theorem pickVersion_mem {α : Type} (cur : α) (old : List α) (k : Nat) : pickVersion cur old k ∈ cur :: old := by
  cases old with
  | nil => exact List.mem_cons_self
  | cons a l =>
    have hk : k % ((a :: l).length + 1) < (cur :: a :: l).length := Nat.mod_lt _ (Nat.succ_pos _)
    simp only [pickVersion]
    rw [List.getD_eq_getElem _ _ hk]
    exact List.getElem_mem _

/-- Two entries of which one has only bits of A and D more give the same page by the same permissions. -/
theorem sameOutcome_bits {t : Access} {cur old : Word} (h : old ||| (cur &&& neededBits t) = cur) :
    (∀ i, i < 64 → i ≠ 6 → i ≠ 7 → old.getLsbD i = cur.getLsbD i) ∧ old ||| neededBits t = cur ||| neededBits t := by
  have hn : ∀ i, (neededBits t).getLsbD i = true → i = 6 ∨ i = 7 := by
    intro i hi
    by_cases h64 : i < 64
    · have key : ∀ t, ∀ i : Fin 64, (neededBits t).getLsbD i = true → i.val = 6 ∨ i.val = 7 := by
        intro t; cases t <;> decide
      exact key t ⟨i, h64⟩ hi
    · rw [BitVec.getLsbD_of_ge _ _ (by omega)] at hi; cases hi
  have hb : ∀ i, (old.getLsbD i || (cur.getLsbD i && (neededBits t).getLsbD i)) = cur.getLsbD i := by
    intro i
    simpa only [BitVec.getLsbD_or, BitVec.getLsbD_and] using congrArg (·.getLsbD i) h
  refine ⟨fun i _ h6 h7 => ?_, BitVec.eq_of_getLsbD_eq fun i _ => ?_⟩
  · have hf : (neededBits t).getLsbD i = false := by
      cases hc : (neededBits t).getLsbD i
      · rfl
      · exact absurd (hn i hc) (by omega)
    simpa [hf] using hb i
  · have := hb i
    simp only [BitVec.getLsbD_or]
    cases h1 : old.getLsbD i <;> cases h2 : cur.getLsbD i <;> cases h3 : (neededBits t).getLsbD i <;> simp_all

/-- A leaf for which `sameOutcome` holds: used instead of the entry in memory it raises the same exception, or gives the
same physical address and leaves every byte of memory the same. So leaving it out of the draw loses no behaviour. -/
theorem sameOutcome_walkLeaf {s : State} (hm : s.mem.wf = true) {va : Word} {t : Access} {p : Priv} {i : Nat}
    {ea cur old : Word} (hc : HoldsBytes s.mem ea.toNat 8 cur) (h : sameOutcome s.board t ea cur old = true) :
    (∃ e, walkLeaf s va t p i ea cur old = .error e ∧ walkLeaf s va t p i ea cur cur = .error e) ∨
    ∃ a b, walkLeaf s va t p i ea cur old = .ok a ∧ walkLeaf s va t p i ea cur cur = .ok b ∧ a.pa = b.pa ∧
      SameMemory (applyUpdate s a.update) (applyUpdate s b.update) := by
  by_cases he : old = cur
  · subst he
    cases hw : walkLeaf s va t p i ea old old with
    | error e => exact .inl ⟨e, rfl, rfl⟩
    | ok a => exact .inr ⟨a, a, rfl, rfl, rfl, fun _ => rfl⟩
  simp only [sameOutcome, he, decide_false, Bool.false_or, Bool.and_eq_true, decide_eq_true_eq] at h
  obtain ⟨⟨h1, h2⟩, h3⟩ := h
  obtain ⟨hb, hw⟩ := sameOutcome_bits h1
  have hper : permitted s.mstatus old t p = permitted s.mstatus cur t p := by
    simp only [permitted, pteX, pteR, pteW, pteU, hb 1 (by omega) (by omega) (by omega),
      hb 2 (by omega) (by omega) (by omega), hb 3 (by omega) (by omega) (by omega),
      hb 4 (by omega) (by omega) (by omega)]
  have hppn : ptePpn old = ptePpn cur := by
    refine BitVec.eq_of_getLsbD_eq fun k hk => ?_
    simp only [ptePpn, BitVec.getLsbD_extractLsb', hk, decide_true, Bool.true_and]
    exact hb _ (by omega) (by omega) (by omega)
  have hold : updateDue t old = true := by
    simp only [updateDue, decide_eq_true_eq]
    intro hd
    apply he
    rw [← h1]
    refine BitVec.eq_of_getLsbD_eq fun k _ => ?_
    have e1 := congrArg (·.getLsbD k) hd
    simp only [BitVec.getLsbD_and] at e1
    simp only [BitVec.getLsbD_or, BitVec.getLsbD_and]
    cases h4 : old.getLsbD k <;> cases h5 : (neededBits t).getLsbD k <;> simp_all
  have hval : updatedEntry s t cur old = cur ||| neededBits t := by
    simp only [updatedEntry, he, if_false]
    split
    · rfl
    · exact hw
  have hmis : misalignedSuperpage old i = misalignedSuperpage cur i := by simp only [misalignedSuperpage, hppn]
  have hla : leafAddress old va i = leafAddress cur va i := by simp only [leafAddress, hppn]
  simp only [walkLeaf, hper, hmis, hla, hold, h2, hval]
  by_cases hp : permitted s.mstatus cur t p = true
  swap
  · exact .inl ⟨pageFaultExc t, by simp [hp], by simp [hp]⟩
  by_cases hs : misalignedSuperpage cur i = true
  · exact .inl ⟨pageFaultExc t, by simp [hp, hs], by simp [hp, hs]⟩
  by_cases hd : updateDue t cur = true
  · exact .inr ⟨{ pa := leafAddress cur va i, update := some (ea, cur ||| neededBits t) },
      { pa := leafAddress cur va i, update := some (ea, cur ||| neededBits t) },
      by simp [hp, hs], by simp [hp, hs, hd, updatedEntry], rfl, fun _ => rfl⟩
  · refine .inr ⟨{ pa := leafAddress cur va i, update := some (ea, cur ||| neededBits t) },
      { pa := leafAddress cur va i, update := none }, by simp [hp, hs], by simp [hp, hs, hd], rfl, fun x => ?_⟩
    have hcur : cur ||| neededBits t = cur := by
      have : cur &&& neededBits t = neededBits t := by simpa [updateDue] using hd
      refine BitVec.eq_of_getLsbD_eq fun k _ => ?_
      have e1 := congrArg (·.getLsbD k) this
      simp only [BitVec.getLsbD_and] at e1
      simp only [BitVec.getLsbD_or]
      cases h4 : cur.getLsbD k <;> cases h5 : (neededBits t).getLsbD k <;> simp_all
    simp only [applyUpdate, (physWrite_ram h3).1, hcur]
    by_cases hx : InRange x ea.toNat 8
    · obtain ⟨k, rfl⟩ : ∃ k, x = ea.toNat + k := ⟨x - ea.toNat, by have := hx.1; omega⟩
      have hk : k < 8 := by have := hx.2; omega
      rw [hc k hk, Memory.store_holds hm 8 _ _ k hk]
    · exact (Memory.byteAt_store_outside hm 8 _ _ hx).symm
end Sys2Proof.Machine
end

