-- ==== Sys2Proof/Tests/Slice0.lean ====
section
/-! SUPPORT. Tests of the model. The expected results are those of spec/95_test_vectors.md and of the encoding tables
of spec/30_encoding.md and spec/40 to spec/46, not the model's own answers. The last part gives, for every statement
of Certificates/Slice0/Obligations.lean that has hypotheses, a state and operands that meet them. -/

namespace Sys2Proof.Tests

open Sys2Proof Sys2Proof.Machine

/-! ## Small states -/

/-- The state after reset with mtvec at 0x80000100, as the tables of spec/95_test_vectors.md start. -/
def start : State := { State.reset with mtvec := { base := 0x20000040#62, vectored := false } }

/-- `x[r]` is `v`. -/
def x (r : Reg) (v : Word) (s : State) : State := s.setReg r v

/-- The `n` bytes at `a` hold `v`. -/
def put (a n : Nat) (v : Word) (s : State) : State := { s with mem := s.mem.store a v n }

/-- The mode is `p`. -/
def mode (p : Priv) (s : State) : State := { s with priv := p }

/-- The pc is `v`. -/
def at_ (v : Word) (s : State) : State := { s with pc := v }

/-- mstatus holds the writable bits of `v`. -/
def mstatusIs (v : Word) (s : State) : State := csrWrite s v .mstatus

/-- mepc and sepc. -/
def epcs (m v : Word) (s : State) : State := { s with mepc := m, sepc := v }

/-- medeleg. -/
def medelegIs (v : Word) (s : State) : State := { s with medeleg := v }

/-- mideleg. -/
def midelegIs (v : Word) (s : State) : State := { s with mideleg := v }

/-- mie. -/
def mieIs (v : Word) (s : State) : State := { s with mie := v }

/-- stvec. -/
def stvecIs (v : Word) (s : State) : State := csrWrite s v .stvec

/-- satp. -/
def satpIs (v : Word) (s : State) : State := { s with satp := s.satp.write v }

/-- mscratch. -/
def mscratchIs (v : Word) (s : State) : State := { s with mscratch := v }

/-- The two lines of the external-interrupt controller. -/
def linesAre (m v : Bool) (s : State) : State := { s with extMei := m, extSei := v, plicProgrammed := true }

/-- The board answers no access. -/
def deaf (s : State) : State := { s with board := { s.board with regions := [] } }

/-- Whether the instruction of a word answers a next state with a property. -/
def ends (s : State) (w : InstrWord) (f : State → Bool) : Bool :=
  match decodeWord w with
  | .error _ => false
  | .ok i =>
    match exec i s with
    | .next t => f t
    | .fault _ => false
    | .refused _ => false

/-- Whether a step answers a next state with a property. -/
def steps (s : State) (f : State → Bool) : Bool :=
  match step s with
  | .next t => f t
  | .fault _ => false
  | .refused _ => false

/-! ## Well-formed terms: an odd byte offset is refused (R192, R272) -/

theorem test_wellFormed_refuses_odd_jal : (Instr.jal 1 3).wellFormed = false := by decide
theorem test_wellFormed_refuses_odd_beq : (Instr.beq 1 2 1).wellFormed = false := by decide
theorem test_wellFormed_refuses_odd_bne : (Instr.bne 1 2 5).wellFormed = false := by decide
theorem test_wellFormed_refuses_odd_blt : (Instr.blt 1 2 0x1FFF).wellFormed = false := by decide
theorem test_wellFormed_refuses_odd_bltu : (Instr.bltu 1 2 7).wellFormed = false := by decide
theorem test_wellFormed_refuses_odd_bge : (Instr.bge 1 2 9).wellFormed = false := by decide
theorem test_wellFormed_refuses_odd_bgeu : (Instr.bgeu 1 2 0x1001).wellFormed = false := by decide
theorem test_wellFormed_accepts_even : (Instr.jal 1 2).wellFormed = true ∧ (Instr.beq 1 2 0x1000).wellFormed = true := by
  decide

/-! ## Decoding: words written bit by bit from spec/30_encoding.md -/

theorem test_decode_integer_1 :
    decodeWord 0b10100101110000111110001010110111#32 = .ok (.lui 5 0xA5C3E) ∧
    decodeWord 0b10100101110000111110001010010111#32 = .ok (.auipc 5 0xA5C3E) ∧
    decodeWord 0b10100101110000110000001010010011#32 = .ok (.addi 5 6 0xA5C) ∧
    decodeWord 0b10100101110000110010001010010011#32 = .ok (.slti 5 6 0xA5C) ∧
    decodeWord 0b10100101110000110011001010010011#32 = .ok (.sltiu 5 6 0xA5C) ∧
    decodeWord 0b10100101110000110111001010010011#32 = .ok (.andi 5 6 0xA5C) ∧
    decodeWord 0b10100101110000110110001010010011#32 = .ok (.ori 5 6 0xA5C) ∧
    decodeWord 0b10100101110000110100001010010011#32 = .ok (.xori 5 6 0xA5C) ∧
    decodeWord 0b00000010110100110001001010010011#32 = .ok (.slli 5 6 45) ∧
    decodeWord 0b00000010110100110101001010010011#32 = .ok (.srli 5 6 45) ∧
    decodeWord 0b01000010110100110101001010010011#32 = .ok (.srai 5 6 45) := by decide

theorem test_decode_integer_2 :
    decodeWord 0b00000001011100110000001010110011#32 = .ok (.add 5 6 23) ∧
    decodeWord 0b01000001011100110000001010110011#32 = .ok (.sub 5 6 23) ∧
    decodeWord 0b00000001011100110010001010110011#32 = .ok (.slt 5 6 23) ∧
    decodeWord 0b00000001011100110011001010110011#32 = .ok (.sltu 5 6 23) ∧
    decodeWord 0b00000001011100110111001010110011#32 = .ok (.and 5 6 23) ∧
    decodeWord 0b00000001011100110110001010110011#32 = .ok (.or 5 6 23) ∧
    decodeWord 0b00000001011100110100001010110011#32 = .ok (.xor 5 6 23) ∧
    decodeWord 0b00000001011100110001001010110011#32 = .ok (.sll 5 6 23) ∧
    decodeWord 0b00000001011100110101001010110011#32 = .ok (.srl 5 6 23) ∧
    decodeWord 0b01000001011100110101001010110011#32 = .ok (.sra 5 6 23) := by decide

theorem test_decode_control :
    decodeWord 0b11011100101001011010001011101111#32 = .ok (.jal 5 0x15A5CA) ∧
    decodeWord 0b10100101110000110000001011100111#32 = .ok (.jalr 5 6 0xA5C) ∧
    decodeWord 0b10100101011100110000110111100011#32 = .ok (.beq 6 23 0x1A5A) ∧
    decodeWord 0b10100101011100110001110111100011#32 = .ok (.bne 6 23 0x1A5A) ∧
    decodeWord 0b10100101011100110100110111100011#32 = .ok (.blt 6 23 0x1A5A) ∧
    decodeWord 0b10100101011100110110110111100011#32 = .ok (.bltu 6 23 0x1A5A) ∧
    decodeWord 0b10100101011100110101110111100011#32 = .ok (.bge 6 23 0x1A5A) ∧
    decodeWord 0b10100101011100110111110111100011#32 = .ok (.bgeu 6 23 0x1A5A) := by decide

theorem test_decode_loadstore :
    decodeWord 0b10100101110000110000001010000011#32 = .ok (.lb 5 6 0xA5C) ∧
    decodeWord 0b10100101110000110100001010000011#32 = .ok (.lbu 5 6 0xA5C) ∧
    decodeWord 0b10100101110000110001001010000011#32 = .ok (.lh 5 6 0xA5C) ∧
    decodeWord 0b10100101110000110101001010000011#32 = .ok (.lhu 5 6 0xA5C) ∧
    decodeWord 0b10100101110000110010001010000011#32 = .ok (.lw 5 6 0xA5C) ∧
    decodeWord 0b10100101110000110110001010000011#32 = .ok (.lwu 5 6 0xA5C) ∧
    decodeWord 0b10100101110000110011001010000011#32 = .ok (.ld 5 6 0xA5C) ∧
    decodeWord 0b10100101011100110000111000100011#32 = .ok (.sb 6 23 0xA5C) ∧
    decodeWord 0b10100101011100110001111000100011#32 = .ok (.sh 6 23 0xA5C) ∧
    decodeWord 0b10100101011100110010111000100011#32 = .ok (.sw 6 23 0xA5C) ∧
    decodeWord 0b10100101011100110011111000100011#32 = .ok (.sd 6 23 0xA5C) := by decide

theorem test_decode_word :
    decodeWord 0b10100101110000110000001010011011#32 = .ok (.addiw 5 6 0xA5C) ∧
    decodeWord 0b00000001011000110001001010011011#32 = .ok (.slliw 5 6 22) ∧
    decodeWord 0b00000001011000110101001010011011#32 = .ok (.srliw 5 6 22) ∧
    decodeWord 0b01000001011000110101001010011011#32 = .ok (.sraiw 5 6 22) ∧
    decodeWord 0b00000001011100110000001010111011#32 = .ok (.addw 5 6 23) ∧
    decodeWord 0b01000001011100110000001010111011#32 = .ok (.subw 5 6 23) ∧
    decodeWord 0b00000001011100110001001010111011#32 = .ok (.sllw 5 6 23) ∧
    decodeWord 0b00000001011100110101001010111011#32 = .ok (.srlw 5 6 23) ∧
    decodeWord 0b01000001011100110101001010111011#32 = .ok (.sraw 5 6 23) := by decide

theorem test_decode_fence :
    decodeWord 0b10000011110000110000001010001111#32 = .ok (.fence 8 3 12 5 6) ∧
    decodeWord 0b10100101110000110001001010001111#32 = .ok (.fenceI 0xA5C 5 6) := by decide

theorem test_decode_atomic_1 :
    decodeWord 0b00001101011100110010001010101111#32 = .ok (.amoswapW 1 0 5 6 23) ∧
    decodeWord 0b00001101011100110011001010101111#32 = .ok (.amoswapD 1 0 5 6 23) ∧
    decodeWord 0b00000101011100110010001010101111#32 = .ok (.amoaddW 1 0 5 6 23) ∧
    decodeWord 0b00000101011100110011001010101111#32 = .ok (.amoaddD 1 0 5 6 23) ∧
    decodeWord 0b01100101011100110010001010101111#32 = .ok (.amoandW 1 0 5 6 23) ∧
    decodeWord 0b01100101011100110011001010101111#32 = .ok (.amoandD 1 0 5 6 23) ∧
    decodeWord 0b01000101011100110010001010101111#32 = .ok (.amoorW 1 0 5 6 23) ∧
    decodeWord 0b01000101011100110011001010101111#32 = .ok (.amoorD 1 0 5 6 23) ∧
    decodeWord 0b00100101011100110010001010101111#32 = .ok (.amoxorW 1 0 5 6 23) ∧
    decodeWord 0b00100101011100110011001010101111#32 = .ok (.amoxorD 1 0 5 6 23) ∧
    decodeWord 0b10100101011100110010001010101111#32 = .ok (.amomaxW 1 0 5 6 23) := by decide

theorem test_decode_atomic_2 :
    decodeWord 0b10100101011100110011001010101111#32 = .ok (.amomaxD 1 0 5 6 23) ∧
    decodeWord 0b10000101011100110010001010101111#32 = .ok (.amominW 1 0 5 6 23) ∧
    decodeWord 0b10000101011100110011001010101111#32 = .ok (.amominD 1 0 5 6 23) ∧
    decodeWord 0b11100101011100110010001010101111#32 = .ok (.amomaxuW 1 0 5 6 23) ∧
    decodeWord 0b11100101011100110011001010101111#32 = .ok (.amomaxuD 1 0 5 6 23) ∧
    decodeWord 0b11000101011100110010001010101111#32 = .ok (.amominuW 1 0 5 6 23) ∧
    decodeWord 0b11000101011100110011001010101111#32 = .ok (.amominuD 1 0 5 6 23) ∧
    decodeWord 0b00010100000000110010001010101111#32 = .ok (.lrW 1 0 5 6) ∧
    decodeWord 0b00010100000000110011001010101111#32 = .ok (.lrD 1 0 5 6) ∧
    decodeWord 0b00011101011100110010001010101111#32 = .ok (.scW 1 0 5 6 23) ∧
    decodeWord 0b00011101011100110011001010101111#32 = .ok (.scD 1 0 5 6 23) := by decide

theorem test_decode_system_1 :
    decodeWord 0b00000000000000000000000001110011#32 = .ok .ecall ∧
    decodeWord 0b00000000000100000000000001110011#32 = .ok .ebreak ∧
    decodeWord 0b00110100010000110001001011110011#32 = .ok (.csrrw 5 0x344 6) ∧
    decodeWord 0b00110100010000110010001011110011#32 = .ok (.csrrs 5 0x344 6) ∧
    decodeWord 0b00110100010000110011001011110011#32 = .ok (.csrrc 5 0x344 6) ∧
    decodeWord 0b00110100010010110101001011110011#32 = .ok (.csrrwi 5 0x344 22) ∧
    decodeWord 0b00110100010010110110001011110011#32 = .ok (.csrrsi 5 0x344 22) ∧
    decodeWord 0b00110100010010110111001011110011#32 = .ok (.csrrci 5 0x344 22) ∧
    decodeWord 0b00110000001000000000000001110011#32 = .ok .mret ∧
    decodeWord 0b00010000001000000000000001110011#32 = .ok .sret ∧
    decodeWord 0b00010011011100110000000001110011#32 = .ok (.sfenceVma 6 23) := by decide

theorem test_decode_system_2 :
    decodeWord 0b00010000010100000000000001110011#32 = .ok .wfi := by decide


/-- Words of no row (spec/95_test_vectors.md V9). -/
theorem test_decode_refuses_words_of_no_row :
    [0x00000000#32, 0xFFFFFFFF#32, 0x02730333#32, 0x0273433B#32, 0x00002007#32, 0x00200073#32, 0x7B200073#32,
      0x22000073#32, 0x06031313#32, 0x0203129B#32, 0x4003129B#32, 0x40731333#32, 0x0000200F#32, 0x00004073#32,
      0x00002063#32, 0x00007003#32, 0x00004023#32, 0x00001067#32, 0x0073002F#32, 0x2873202F#32, 0x105000F3#32,
      0x30208073#32, 0x107322AF#32].all (fun w => (decodeWord w).toOption.isNone) = true := by decide

theorem test_decodeTableWord : decodeTableWord 32 0x00730863 = some (.beq 6 7 16) ∧ decodeTableWord 32 0 = none := by
  decide

/-! ## The step -/

theorem test_withFetchWord_runs_the_word :
    steps (start.withFetchWord 32 0xFFF30293) (fun t => t.reg 5 == 0xFFFFFFFFFFFFFFFF && t.pc == 0x80000004) = true :=
  by decide

theorem test_step_illegal_word :
    steps (start.withFetchWord 32 0x02730333)
      (fun t => t.mcause == 2 && t.mtval == 0x02730333 && t.mepc == 0x80000000 && t.pc == 0x80000100) = true := by
  decide

/-- spec/95_test_vectors.md V10, a machine timer interrupt in M mode. -/
theorem test_step_timer_interrupt :
    steps { (start |> mstatusIs 8 |> mieIs 0x80) with mtimecmp := 0 }
      (fun t => t.mcause == 0x8000000000000007 && t.mepc == 0x80000000 && t.mtval == 0 &&
        t.mstatus.value == 0xF00001880 && t.pc == 0x80000100 && t.priv == .M) = true := by decide

/-- spec/95_test_vectors.md V10, a delegated supervisor external interrupt in S mode. -/
theorem test_step_delegated_interrupt :
    steps (start |> mode .S |> mstatusIs 2 |> stvecIs 0x80000200 |> mieIs 0x200 |> midelegIs 0x200
        |> linesAre false true)
      (fun t => t.scause == 0x8000000000000009 && t.sepc == 0x80000000 && t.stval == 0 &&
        t.mstatus.value == 0xF00000120 && t.pc == 0x80000200 && t.priv == .S) = true := by decide

/-! ## One instruction: the tables V1 to V8, V12 and V13 of spec/95_test_vectors.md -/

theorem test_exec_lui :
    ends start 0x800002B7#32
      (fun t => t.reg 5 == 0xFFFFFFFF80000000 && t.pc == 0x80000004) = true ∧
    ends start 0x12345037#32
      (fun t => t.reg 0 == 0 && t.pc == 0x80000004) = true := by decide

theorem test_exec_auipc :
    ends start 0x00001297#32
      (fun t => t.reg 5 == 0x80001000 && t.pc == 0x80000004) = true ∧
    ends start 0xFFFFF297#32
      (fun t => t.reg 5 == 0x7FFFF000 && t.pc == 0x80000004) = true := by decide

theorem test_exec_addi :
    ends (start |> x 6 0x8000000000000000) 0x80030293#32
      (fun t => t.reg 5 == 0x7FFFFFFFFFFFF800 && t.pc == 0x80000004) = true ∧
    ends (start |> x 6 0x7FFFFFFFFFFFFFFF) 0x7FF30293#32
      (fun t => t.reg 5 == 0x80000000000007FE && t.pc == 0x80000004) = true := by decide

theorem test_exec_slti :
    ends (start |> x 6 0x8000000000000000) 0xFFF32293#32
      (fun t => t.reg 5 == 1 && t.pc == 0x80000004) = true ∧
    ends (start |> x 6 1) 0x00132293#32
      (fun t => t.reg 5 == 0 && t.pc == 0x80000004) = true := by decide

theorem test_exec_sltiu :
    ends (start |> x 6 0x8000000000000000) 0xFFF33293#32
      (fun t => t.reg 5 == 1 && t.pc == 0x80000004) = true ∧
    ends start 0x00033293#32
      (fun t => t.reg 5 == 0 && t.pc == 0x80000004) = true := by decide

theorem test_exec_andi :
    ends (start |> x 6 0x123456789ABCDEFF) 0xFF037293#32
      (fun t => t.reg 5 == 0x123456789ABCDEF0 && t.pc == 0x80000004) = true := by decide

theorem test_exec_ori :
    ends (start |> x 6 15) 0x80036293#32
      (fun t => t.reg 5 == 0xFFFFFFFFFFFFF80F && t.pc == 0x80000004) = true := by decide

theorem test_exec_xori :
    ends (start |> x 6 0xFF00FF00FF00FF) 0xFFF34293#32
      (fun t => t.reg 5 == 0xFF00FF00FF00FF00 && t.pc == 0x80000004) = true := by decide

theorem test_exec_slli :
    ends (start |> x 6 3) 0x03F31293#32
      (fun t => t.reg 5 == 0x8000000000000000 && t.pc == 0x80000004) = true ∧
    ends (start |> x 6 0xFFFFFFFF) 0x02031293#32
      (fun t => t.reg 5 == 0xFFFFFFFF00000000 && t.pc == 0x80000004) = true := by decide

theorem test_exec_srli :
    ends (start |> x 6 0x8000000000000000) 0x03F35293#32
      (fun t => t.reg 5 == 1 && t.pc == 0x80000004) = true ∧
    ends (start |> x 6 0xF000000000000000) 0x00435293#32
      (fun t => t.reg 5 == 0xF00000000000000 && t.pc == 0x80000004) = true := by decide

theorem test_exec_srai :
    ends (start |> x 6 0xF000000000000000) 0x40435293#32
      (fun t => t.reg 5 == 0xFF00000000000000 && t.pc == 0x80000004) = true ∧
    ends (start |> x 6 0x7000000000000000) 0x40435293#32
      (fun t => t.reg 5 == 0x700000000000000 && t.pc == 0x80000004) = true := by decide

theorem test_exec_add :
    ends (start |> x 6 0x1 |> x 7 0xFFFFFFFFFFFFFFFF) 0x007302B3#32
      (fun t => t.reg 5 == 0 && t.pc == 0x80000004) = true ∧
    ends (start |> x 6 0x7FFFFFFFFFFFFFFF |> x 7 0x1) 0x007302B3#32
      (fun t => t.reg 5 == 0x8000000000000000 && t.pc == 0x80000004) = true := by decide

theorem test_exec_sub :
    ends (start |> x 7 0x1) 0x407302B3#32
      (fun t => t.reg 5 == 0xFFFFFFFFFFFFFFFF && t.pc == 0x80000004) = true ∧
    ends (start |> x 6 0x8000000000000000 |> x 7 0x1) 0x407302B3#32
      (fun t => t.reg 5 == 0x7FFFFFFFFFFFFFFF && t.pc == 0x80000004) = true := by decide

theorem test_exec_slt :
    ends (start |> x 6 0xFFFFFFFFFFFFFFFF |> x 7 0x1) 0x007322B3#32
      (fun t => t.reg 5 == 0x1 && t.pc == 0x80000004) = true ∧
    ends (start |> x 6 0x1 |> x 7 0xFFFFFFFFFFFFFFFF) 0x007322B3#32
      (fun t => t.reg 5 == 0 && t.pc == 0x80000004) = true := by decide

theorem test_exec_sltu :
    ends (start |> x 6 0x1 |> x 7 0xFFFFFFFFFFFFFFFF) 0x007332B3#32
      (fun t => t.reg 5 == 0x1 && t.pc == 0x80000004) = true ∧
    ends (start |> x 6 0xFFFFFFFFFFFFFFFF |> x 7 0x1) 0x007332B3#32
      (fun t => t.reg 5 == 0 && t.pc == 0x80000004) = true := by decide

theorem test_exec_and :
    ends (start |> x 6 0xFF00FF00FF00FF00 |> x 7 0xFF00FF00FF00FF0) 0x007372B3#32
      (fun t => t.reg 5 == 0xF000F000F000F00 && t.pc == 0x80000004) = true := by decide

theorem test_exec_or :
    ends (start |> x 6 0xFF00FF00FF00FF00 |> x 7 0xFF00FF00FF00FF0) 0x007362B3#32
      (fun t => t.reg 5 == 0xFFF0FFF0FFF0FFF0 && t.pc == 0x80000004) = true := by decide

theorem test_exec_xor :
    ends (start |> x 6 0xFF00FF00FF00FF00 |> x 7 0xFF00FF00FF00FF0) 0x007342B3#32
      (fun t => t.reg 5 == 0xF0F0F0F0F0F0F0F0 && t.pc == 0x80000004) = true := by decide

theorem test_exec_sll :
    ends (start |> x 6 0x1 |> x 7 0x44) 0x007312B3#32
      (fun t => t.reg 5 == 0x10 && t.pc == 0x80000004) = true ∧
    ends (start |> x 6 0x1 |> x 7 0x3F) 0x007312B3#32
      (fun t => t.reg 5 == 0x8000000000000000 && t.pc == 0x80000004) = true := by decide

theorem test_exec_srl :
    ends (start |> x 6 0x8000000000000000 |> x 7 0x3F) 0x007352B3#32
      (fun t => t.reg 5 == 0x1 && t.pc == 0x80000004) = true ∧
    ends (start |> x 6 0x8000000000000000 |> x 7 0x7F) 0x007352B3#32
      (fun t => t.reg 5 == 0x1 && t.pc == 0x80000004) = true := by decide

theorem test_exec_sra :
    ends (start |> x 6 0x4000000000000000 |> x 7 0x1) 0x407352B3#32
      (fun t => t.reg 5 == 0x2000000000000000 && t.pc == 0x80000004) = true ∧
    ends (start |> x 6 0x8000000000000000 |> x 7 0x3F) 0x407352B3#32
      (fun t => t.reg 5 == 0xFFFFFFFFFFFFFFFF && t.pc == 0x80000004) = true := by decide

theorem test_exec_jal :
    ends start 0x800000EF#32
      (fun t => t.pc == 0x7FF00000 && t.reg 1 == 0x80000004) = true ∧
    ends (start |> x 1 0xAAAA) 0x002000EF#32
      (fun t => t.pc == 0x80000100 && t.mcause == 0 && t.mepc == 0x80000000 && t.mtval == 0x80000002
        && t.reg 1 == 0xAAAA) = true := by decide

theorem test_exec_jalr :
    ends (start |> x 6 0x80001000) 0x00030367#32
      (fun t => t.pc == 0x80001000 && t.reg 6 == 0x80000004) = true ∧
    ends (start |> x 6 0x80001000 |> x 1 0xAAAA) 0x003300E7#32
      (fun t => t.pc == 0x80000100 && t.mcause == 0 && t.mepc == 0x80000000 && t.mtval == 0x80001002
        && t.reg 1 == 0xAAAA) = true := by decide

theorem test_exec_beq :
    ends start 0x80730063#32
      (fun t => t.pc == 0x7FFFF000) = true ∧
    ends (start |> x 7 1) 0x7E730FE3#32
      (fun t => t.pc == 0x80000004) = true := by decide

theorem test_exec_bne :
    ends (start |> x 6 5 |> x 7 6) 0x00731863#32
      (fun t => t.pc == 0x80000010) = true ∧
    ends (start |> x 6 5 |> x 7 5) 0x00731863#32
      (fun t => t.pc == 0x80000004) = true := by decide

theorem test_exec_blt :
    ends (start |> x 6 0xFFFFFFFFFFFFFFFF |> x 7 1) 0x00734863#32
      (fun t => t.pc == 0x80000010) = true ∧
    ends (start |> x 6 1 |> x 7 0xFFFFFFFFFFFFFFFF) 0x00734863#32
      (fun t => t.pc == 0x80000004) = true := by decide

theorem test_exec_bltu :
    ends (start |> x 6 1 |> x 7 0xFFFFFFFFFFFFFFFF) 0x00736863#32
      (fun t => t.pc == 0x80000010) = true ∧
    ends (start |> x 6 0xFFFFFFFFFFFFFFFF |> x 7 1) 0x00736863#32
      (fun t => t.pc == 0x80000004) = true := by decide

theorem test_exec_bge :
    ends (start |> x 6 1 |> x 7 1) 0x00735863#32
      (fun t => t.pc == 0x80000010) = true ∧
    ends (start |> x 6 0xFFFFFFFFFFFFFFFF |> x 7 1) 0x00735863#32
      (fun t => t.pc == 0x80000004) = true := by decide

theorem test_exec_bgeu :
    ends (start |> x 6 0xFFFFFFFFFFFFFFFF |> x 7 1) 0x00737863#32
      (fun t => t.pc == 0x80000010) = true ∧
    ends (start |> x 7 1) 0x00737863#32
      (fun t => t.pc == 0x80000004) = true := by decide

theorem test_exec_lb :
    ends (start |> put 0x80002000 8 0x92345678FFFE7F80 |> put 0x80002008 8 0x123456789ABCDEF0
        |> x 6 0x80002000 |> x 5 0xABC) 0x00030283#32
      (fun t => t.reg 5 == 0xFFFFFFFFFFFFFF80) = true ∧
    ends (start |> put 0x80002000 8 0x92345678FFFE7F80 |> put 0x80002008 8 0x123456789ABCDEF0
        |> x 6 0x80002000 |> x 5 0xABC) 0x00F30283#32
      (fun t => t.reg 5 == 18) = true := by decide

theorem test_exec_lbu :
    ends (start |> put 0x80002000 8 0x92345678FFFE7F80 |> put 0x80002008 8 0x123456789ABCDEF0
        |> x 6 0x80002000 |> x 5 0xABC) 0x00034283#32
      (fun t => t.reg 5 == 128) = true ∧
    ends (start |> put 0x80002000 8 0x92345678FFFE7F80 |> put 0x80002008 8 0x123456789ABCDEF0
        |> x 6 0x80002000 |> x 5 0xABC) 0x00334283#32
      (fun t => t.reg 5 == 255) = true := by decide

theorem test_exec_lh :
    ends (start |> put 0x80002000 8 0x92345678FFFE7F80 |> put 0x80002008 8 0x123456789ABCDEF0
        |> x 6 0x80002000 |> x 5 0xABC) 0x00231283#32
      (fun t => t.reg 5 == 0xFFFFFFFFFFFFFFFE) = true ∧
    ends (start |> put 0x80002000 8 0x92345678FFFE7F80 |> put 0x80002008 8 0x123456789ABCDEF0
        |> x 6 0x80002000 |> x 5 0xABC) 0x00131283#32
      (fun t => t.mcause == 0x4 && t.mepc == 0x80000000 && t.mtval == 0x80002001 && t.reg 5 == 0xABC
        && t.pc == 0x80000100) = true := by decide

theorem test_exec_lhu :
    ends (start |> put 0x80002000 8 0x92345678FFFE7F80 |> put 0x80002008 8 0x123456789ABCDEF0
        |> x 6 0x80002000 |> x 5 0xABC) 0x00235283#32
      (fun t => t.reg 5 == 0xFFFE) = true ∧
    ends (start |> put 0x80002000 8 0x92345678FFFE7F80 |> put 0x80002008 8 0x123456789ABCDEF0
        |> x 6 0x80002000 |> x 5 0xABC) 0x00335283#32
      (fun t => t.mcause == 0x4 && t.mepc == 0x80000000 && t.mtval == 0x80002003 && t.reg 5 == 0xABC
        && t.pc == 0x80000100) = true := by decide

theorem test_exec_lw :
    ends (start |> put 0x80002000 8 0x92345678FFFE7F80 |> put 0x80002008 8 0x123456789ABCDEF0
        |> x 6 0x80002000 |> x 5 0xABC) 0x00432283#32
      (fun t => t.reg 5 == 0xFFFFFFFF92345678) = true ∧
    ends (start |> put 0x80002000 8 0x92345678FFFE7F80 |> put 0x80002008 8 0x123456789ABCDEF0
        |> x 6 0x80002000 |> x 5 0xABC) 0x00232283#32
      (fun t => t.mcause == 0x4 && t.mepc == 0x80000000 && t.mtval == 0x80002002 && t.reg 5 == 0xABC
        && t.pc == 0x80000100) = true := by decide

theorem test_exec_lwu :
    ends (start |> put 0x80002000 8 0x92345678FFFE7F80 |> put 0x80002008 8 0x123456789ABCDEF0
        |> x 6 0x80002000 |> x 5 0xABC) 0x00436283#32
      (fun t => t.reg 5 == 0x92345678) = true ∧
    ends (start |> put 0x80002000 8 0x92345678FFFE7F80 |> put 0x80002008 8 0x123456789ABCDEF0
        |> x 6 0x80002000 |> x 5 0xABC) 0x00136283#32
      (fun t => t.mcause == 0x4 && t.mepc == 0x80000000 && t.mtval == 0x80002001 && t.reg 5 == 0xABC
        && t.pc == 0x80000100) = true := by decide

theorem test_exec_ld :
    ends (start |> put 0x80002000 8 0x92345678FFFE7F80 |> put 0x80002008 8 0x123456789ABCDEF0
        |> x 6 0x80002008 |> x 5 0xABC) 0xFF833283#32
      (fun t => t.reg 5 == 0x92345678FFFE7F80) = true ∧
    ends (start |> put 0x80010000 8 0x20004401 |> put 0x80011000 8 0x20004801 |> put 0x80012000 8 0x20008007
        |> put 0x80012028 8 0x20009443 |> put 0x80020000 8 0x1111111111111111
        |> put 0x80025000 8 0x5555555555555555 |> satpIs 0x8000000000080010 |> mode .S |> x 5 0xABC
        |> x 7 0x77) 0x00033283#32
      (fun t => t.reg 5 == 0x1111111111111111 && t.mem.load 0x80012000 8 == 0x20008047) = true := by decide

theorem test_exec_sb :
    ends (start |> x 6 0x80002000 |> x 7 0x1122334455667788) 0x007301A3#32
      (fun t => t.mem.load 0x80002000 8 == 0x88000000 && t.mem.load 0x80002008 8 == 0) = true := by decide

theorem test_exec_sh :
    ends (start |> x 6 0x80002000 |> x 7 0x1122334455667788) 0x00731323#32
      (fun t => t.mem.load 0x80002000 8 == 0x7788000000000000 && t.mem.load 0x80002008 8 == 0) = true ∧
    ends (start |> x 6 0x80002000 |> x 7 0x1122334455667788) 0x007310A3#32
      (fun t => t.mcause == 0x6 && t.mepc == 0x80000000 && t.mtval == 0x80002001 && t.pc == 0x80000100
        && t.mem.load 0x80002000 8 == 0 && t.mem.load 0x80002008 8 == 0) = true := by decide

theorem test_exec_sw :
    ends (start |> x 6 0x80002000 |> x 7 0x1122334455667788) 0x00732223#32
      (fun t => t.mem.load 0x80002000 8 == 0x5566778800000000 && t.mem.load 0x80002008 8 == 0) = true ∧
    ends (start |> x 6 0x80002000 |> x 7 0x1122334455667788) 0x00732123#32
      (fun t => t.mcause == 0x6 && t.mepc == 0x80000000 && t.mtval == 0x80002002 && t.pc == 0x80000100
        && t.mem.load 0x80002000 8 == 0 && t.mem.load 0x80002008 8 == 0) = true := by decide

theorem test_exec_sd :
    ends (start |> x 6 0x80002000 |> x 7 0x1122334455667788) 0x00733423#32
      (fun t => t.mem.load 0x80002000 8 == 0 && t.mem.load 0x80002008 8 == 0x1122334455667788) = true ∧
    ends (start |> put 0x80010000 8 0x20004401 |> put 0x80011000 8 0x20004801 |> put 0x80012000 8 0x20008007
        |> put 0x80012028 8 0x20009443 |> put 0x80020000 8 0x1111111111111111
        |> put 0x80025000 8 0x5555555555555555 |> satpIs 0x8000000000080010 |> mode .S |> x 5 0xABC
        |> x 7 0x77) 0x00733023#32
      (fun t => t.reg 5 == 0xABC && t.mem.load 0x80012000 8 == 0x200080C7
        && t.mem.load 0x80020000 8 == 0x77) = true := by decide

theorem test_exec_addiw :
    ends (start |> x 6 0x7FFFFFFF) 0x0013029B#32
      (fun t => t.reg 5 == 0xFFFFFFFF80000000 && t.pc == 0x80000004) = true ∧
    ends (start |> x 6 0xFFFFFFFF00000000) 0xFFF3029B#32
      (fun t => t.reg 5 == 0xFFFFFFFFFFFFFFFF && t.pc == 0x80000004) = true := by decide

theorem test_exec_slliw :
    ends (start |> x 6 0x1) 0x01F3129B#32
      (fun t => t.reg 5 == 0xFFFFFFFF80000000 && t.pc == 0x80000004) = true ∧
    ends (start |> x 6 0xFFFFFFFF40000000) 0x0013129B#32
      (fun t => t.reg 5 == 0xFFFFFFFF80000000 && t.pc == 0x80000004) = true := by decide

theorem test_exec_srliw :
    ends (start |> x 6 0xFFFFFFFF80000000) 0x01F3529B#32
      (fun t => t.reg 5 == 0x1 && t.pc == 0x80000004) = true ∧
    ends (start |> x 6 0x80000000) 0x0003529B#32
      (fun t => t.reg 5 == 0xFFFFFFFF80000000 && t.pc == 0x80000004) = true := by decide

theorem test_exec_sraiw :
    ends (start |> x 6 0x80000000) 0x41F3529B#32
      (fun t => t.reg 5 == 0xFFFFFFFFFFFFFFFF && t.pc == 0x80000004) = true ∧
    ends (start |> x 6 0xFFFFFFFF7FFFFFFF) 0x4013529B#32
      (fun t => t.reg 5 == 0x3FFFFFFF && t.pc == 0x80000004) = true := by decide

theorem test_exec_addw :
    ends (start |> x 6 0x7FFFFFFF |> x 7 0x1) 0x007302BB#32
      (fun t => t.reg 5 == 0xFFFFFFFF80000000 && t.pc == 0x80000004) = true ∧
    ends (start |> x 6 0xFFFFFFFFFFFFFFFF |> x 7 0x1) 0x007302BB#32
      (fun t => t.reg 5 == 0 && t.pc == 0x80000004) = true := by decide

theorem test_exec_subw :
    ends (start |> x 7 0x1) 0x407302BB#32
      (fun t => t.reg 5 == 0xFFFFFFFFFFFFFFFF && t.pc == 0x80000004) = true ∧
    ends (start |> x 6 0x80000000 |> x 7 0x1) 0x407302BB#32
      (fun t => t.reg 5 == 0x7FFFFFFF && t.pc == 0x80000004) = true := by decide

theorem test_exec_sllw :
    ends (start |> x 6 0x1 |> x 7 0x3F) 0x007312BB#32
      (fun t => t.reg 5 == 0xFFFFFFFF80000000 && t.pc == 0x80000004) = true ∧
    ends (start |> x 6 0x1 |> x 7 0x20) 0x007312BB#32
      (fun t => t.reg 5 == 0x1 && t.pc == 0x80000004) = true := by decide

theorem test_exec_srlw :
    ends (start |> x 6 0xFFFFFFFF80000000 |> x 7 0x1F) 0x007352BB#32
      (fun t => t.reg 5 == 0x1 && t.pc == 0x80000004) = true ∧
    ends (start |> x 6 0x80000000 |> x 7 0x20) 0x007352BB#32
      (fun t => t.reg 5 == 0xFFFFFFFF80000000 && t.pc == 0x80000004) = true := by decide

theorem test_exec_sraw :
    ends (start |> x 6 0x80000000 |> x 7 0x1F) 0x407352BB#32
      (fun t => t.reg 5 == 0xFFFFFFFFFFFFFFFF && t.pc == 0x80000004) = true ∧
    ends (start |> x 6 0x100000000 |> x 7 0x1) 0x407352BB#32
      (fun t => t.reg 5 == 0 && t.pc == 0x80000004) = true := by decide

theorem test_exec_fence :
    ends (start |> x 31 0x1111 |> x 6 0x6666) 0x0FF30F8F#32
      (fun t => t.pc == 0x80000004 && t.reg 31 == 0x1111 && t.reg 6 == 0x6666) = true := by decide

theorem test_exec_fence_i :
    ends (start |> x 31 0x1111 |> x 6 0x6666) 0xFFFF9F8F#32
      (fun t => t.pc == 0x80000004 && t.reg 31 == 0x1111 && t.reg 6 == 0x6666) = true := by decide

theorem test_exec_amoswap_w :
    ends (start |> put 0x80002000 8 0x7777777780000001 |> x 6 0x80002000 |> x 7 0x100000003) 0x087322AF#32
      (fun t => t.reg 5 == 0xFFFFFFFF80000001 && t.mem.load 0x80002000 8 == 0x7777777700000003) = true := by decide

theorem test_exec_amoswap_d :
    ends (start |> put 0x80002000 8 10 |> x 6 0x80002000 |> x 7 3) 0x0873332F#32
      (fun t => t.mem.load 0x80002000 8 == 3 && t.reg 6 == 10) = true := by decide

theorem test_exec_amoadd_w :
    ends (start |> put 0x80002000 8 0x7777777780000001 |> x 6 0x80002000 |> x 7 0x100000003) 0x007322AF#32
      (fun t => t.reg 5 == 0xFFFFFFFF80000001 && t.mem.load 0x80002000 8 == 0x7777777780000004) = true ∧
    ends (start |> put 0x80002000 8 3 |> x 6 0x80002000 |> x 7 3) 0x0073202F#32
      (fun t => t.mem.load 0x80002000 8 == 6 && t.reg 0 == 0) = true := by decide

theorem test_exec_amoadd_d :
    ends (start |> put 0x80002000 8 0x8000000000000001 |> x 6 0x80002000 |> x 7 0x3) 0x007332AF#32
      (fun t => t.reg 5 == 0x8000000000000001 && t.mem.load 0x80002000 8 == 0x8000000000000004) = true ∧
    ends (start |> x 6 0x80002004 |> x 7 3) 0x007332AF#32
      (fun t => t.mcause == 6 && t.mtval == 0x80002004 && t.mepc == 0x80000000) = true := by decide

theorem test_exec_amoand_w :
    ends (start |> put 0x80002000 8 0x7777777780000001 |> x 6 0x80002000 |> x 7 0x100000003) 0x607322AF#32
      (fun t => t.reg 5 == 0xFFFFFFFF80000001 && t.mem.load 0x80002000 8 == 0x7777777700000001) = true := by decide

theorem test_exec_amoand_d :
    ends (start |> put 0x80002000 8 0x8000000000000001 |> x 6 0x80002000 |> x 7 0x3) 0x607332AF#32
      (fun t => t.reg 5 == 0x8000000000000001 && t.mem.load 0x80002000 8 == 0x1) = true := by decide

theorem test_exec_amoor_w :
    ends (start |> put 0x80002000 8 0x7777777780000001 |> x 6 0x80002000 |> x 7 0x100000003) 0x407322AF#32
      (fun t => t.reg 5 == 0xFFFFFFFF80000001 && t.mem.load 0x80002000 8 == 0x7777777780000003) = true := by decide

theorem test_exec_amoor_d :
    ends (start |> put 0x80002000 8 0x8000000000000001 |> x 6 0x80002000 |> x 7 0x3) 0x407332AF#32
      (fun t => t.reg 5 == 0x8000000000000001 && t.mem.load 0x80002000 8 == 0x8000000000000003) = true := by decide

theorem test_exec_amoxor_w :
    ends (start |> put 0x80002000 8 0x7777777780000001 |> x 6 0x80002000 |> x 7 0x100000003) 0x207322AF#32
      (fun t => t.reg 5 == 0xFFFFFFFF80000001 && t.mem.load 0x80002000 8 == 0x7777777780000002) = true := by decide

theorem test_exec_amoxor_d :
    ends (start |> put 0x80002000 8 0x8000000000000001 |> x 6 0x80002000 |> x 7 0x3) 0x207332AF#32
      (fun t => t.reg 5 == 0x8000000000000001 && t.mem.load 0x80002000 8 == 0x8000000000000002) = true := by decide

theorem test_exec_amomax_w :
    ends (start |> put 0x80002000 8 0x7777777780000001 |> x 6 0x80002000 |> x 7 0x100000003) 0xA07322AF#32
      (fun t => t.reg 5 == 0xFFFFFFFF80000001 && t.mem.load 0x80002000 8 == 0x7777777700000003) = true := by decide

theorem test_exec_amomax_d :
    ends (start |> put 0x80002000 8 0x8000000000000001 |> x 6 0x80002000 |> x 7 0x3) 0xA07332AF#32
      (fun t => t.reg 5 == 0x8000000000000001 && t.mem.load 0x80002000 8 == 0x3) = true := by decide

theorem test_exec_amomin_w :
    ends (start |> put 0x80002000 8 0x7777777780000001 |> x 6 0x80002000 |> x 7 0x100000003) 0x807322AF#32
      (fun t => t.reg 5 == 0xFFFFFFFF80000001 && t.mem.load 0x80002000 8 == 0x7777777780000001) = true := by decide

theorem test_exec_amomin_d :
    ends (start |> put 0x80002000 8 0x8000000000000001 |> x 6 0x80002000 |> x 7 0x3) 0x807332AF#32
      (fun t => t.reg 5 == 0x8000000000000001 && t.mem.load 0x80002000 8 == 0x8000000000000001) = true := by decide

theorem test_exec_amomaxu_w :
    ends (start |> put 0x80002000 8 0x7777777780000001 |> x 6 0x80002000 |> x 7 0x100000003) 0xE07322AF#32
      (fun t => t.reg 5 == 0xFFFFFFFF80000001 && t.mem.load 0x80002000 8 == 0x7777777780000001) = true := by decide

theorem test_exec_amomaxu_d :
    ends (start |> put 0x80002000 8 0x8000000000000001 |> x 6 0x80002000 |> x 7 0x3) 0xE07332AF#32
      (fun t => t.reg 5 == 0x8000000000000001 && t.mem.load 0x80002000 8 == 0x8000000000000001) = true := by decide

theorem test_exec_amominu_w :
    ends (start |> put 0x80002000 8 0x7777777780000001 |> x 6 0x80002000 |> x 7 0x100000003) 0xC07322AF#32
      (fun t => t.reg 5 == 0xFFFFFFFF80000001 && t.mem.load 0x80002000 8 == 0x7777777700000003) = true := by decide

theorem test_exec_amominu_d :
    ends (start |> put 0x80002000 8 0x8000000000000001 |> x 6 0x80002000 |> x 7 0x3) 0xC07332AF#32
      (fun t => t.reg 5 == 0x8000000000000001 && t.mem.load 0x80002000 8 == 0x3) = true := by decide

theorem test_exec_lr_w :
    ends (start |> put 0x80002000 8 0x80000001 |> x 6 0x80002000) 0x100322AF#32
      (fun t => t.reg 5 == 0xFFFFFFFF80000001) = true ∧
    ends (start |> x 6 0x80002002 |> x 5 5) 0x100322AF#32
      (fun t => t.mcause == 4 && t.mtval == 0x80002002 && t.reg 5 == 5) = true := by decide

theorem test_exec_lr_d :
    ends (start |> put 0x80002000 8 0x8000000000000001 |> x 6 0x80002000) 0x100332AF#32
      (fun t => t.reg 5 == 0x8000000000000001) = true ∧
    ends (start |> put 0x80010000 8 0x20004401 |> put 0x80011000 8 0x20004801 |> put 0x80012000 8 0x20008007
        |> put 0x80012028 8 0x20009443 |> put 0x80020000 8 0x1111111111111111
        |> put 0x80025000 8 0x5555555555555555 |> satpIs 0x8000000000080010 |> mode .S |> x 6 0x5000
        |> x 5 0xABC |> x 7 0x77) 0x100332AF#32
      (fun t => t.reg 5 == 0x5555555555555555) = true := by decide

theorem test_exec_sc_w :
    ends (start |> put 0x80002000 8 0x9999999900000000 |> x 6 0x80002000 |> x 5 5
        |> x 7 0x1122334455667788) 0x187322AF#32
      (fun t => t.mem.load 0x80002000 8 == 0x9999999955667788 && t.reg 5 == 0) = true := by decide

theorem test_exec_sc_d :
    ends (start |> x 6 0x80002000 |> x 5 5 |> x 7 0x1122334455667788) 0x187332AF#32
      (fun t => t.mem.load 0x80002000 8 == 0x1122334455667788 && t.reg 5 == 0) = true ∧
    ends (start |> x 6 0x80002004 |> x 5 5) 0x187332AF#32
      (fun t => t.mcause == 6 && t.mtval == 0x80002004 && t.reg 5 == 5) = true := by decide

theorem test_exec_ecall :
    ends (start |> mode .U |> mstatusIs 0xa) 0x00000073#32
      (fun t => t.mcause == 0x8 && t.mepc == 0x80000004 && t.mtval == 0x80000000
        && t.mstatus.value == 0xF00000082 && t.pc == 0x80000100 && t.priv == .M) = true ∧
    ends (start |> mode .U |> stvecIs 0x80000200 |> mstatusIs 0xa |> medelegIs 0x100) 0x00000073#32
      (fun t => t.scause == 0x8 && t.sepc == 0x80000004 && t.stval == 0x80000000
        && t.mstatus.value == 0xF00000028 && t.pc == 0x80000200 && t.priv == .S) = true := by decide

theorem test_exec_ebreak :
    ends start 0x00100073#32
      (fun t => t.mcause == 0x3 && t.mepc == 0x80000004 && t.mtval == 0x80000000
        && t.mstatus.value == 0xF00001800 && t.pc == 0x80000100 && t.priv == .M) = true ∧
    ends (start |> mode .U |> stvecIs 0x80000200 |> medelegIs 0x8) 0x00100073#32
      (fun t => t.scause == 0x3 && t.sepc == 0x80000004 && t.stval == 0x80000000
        && t.mstatus.value == 0xF00000000 && t.pc == 0x80000200 && t.priv == .S) = true := by decide

theorem test_exec_csrrw :
    ends (start |> x 6 0x1000 |> mstatusIs 0x800) 0x30031073#32
      (fun t => t.pc == 0x80000004 && csrRead t .mstatus == 0xF00000800) = true ∧
    ends (start |> mode .U |> x 5 0x5AA5) 0xC0031073#32
      (fun t => t.mcause == 2 && t.mepc == 0x80000000 && t.mtval == 0xC0031073 && t.pc == 0x80000100
        && t.reg 5 == 0x5AA5) = true := by decide

theorem test_exec_csrrs :
    ends (start |> x 6 0xF0 |> mscratchIs 0x1111) 0x340322F3#32
      (fun t => t.pc == 0x80000004 && t.reg 5 == 0x1111 && csrRead t .mscratch == 0x11F1) = true ∧
    ends (start |> linesAre false true |> x 6 2) 0x344322F3#32
      (fun t => t.reg 5 == 0x200 && t.seipSw == false && t.ssip) = true := by decide

theorem test_exec_csrrc :
    ends (start |> x 6 0x11 |> mscratchIs 0x1111) 0x340332F3#32
      (fun t => t.pc == 0x80000004 && t.reg 5 == 0x1111 && csrRead t .mscratch == 0x1100) = true := by decide

theorem test_exec_csrrwi :
    ends (start |> mscratchIs 0x1111) 0x340FD2F3#32
      (fun t => t.pc == 0x80000004 && t.reg 5 == 0x1111 && csrRead t .mscratch == 0x1F) = true := by decide

theorem test_exec_csrrsi :
    ends (start |> mscratchIs 0x1111) 0x340462F3#32
      (fun t => t.pc == 0x80000004 && t.reg 5 == 0x1111 && csrRead t .mscratch == 0x1119) = true ∧
    ends (start |> mode .U |> x 5 0x5AA5) 0xC000E2F3#32
      (fun t => t.mcause == 2 && t.mepc == 0x80000000 && t.mtval == 0xC000E2F3 && t.pc == 0x80000100
        && t.reg 5 == 0x5AA5) = true := by decide

theorem test_exec_csrrci :
    ends (start |> mscratchIs 0x1111) 0x3400F2F3#32
      (fun t => t.pc == 0x80000004 && t.reg 5 == 0x1111 && csrRead t .mscratch == 0x1110) = true := by decide

theorem test_exec_mret :
    ends (start |> mstatusIs 0x880 |> epcs 0x80004000 0x80005000) 0x30200073#32
      (fun t => t.mstatus.value == 0xF00000088 && t.pc == 0x80004000 && t.priv == .S) = true ∧
    ends (start |> mode .S) 0x30200073#32
      (fun t => t.mcause == 0x2 && t.mepc == 0x80000000 && t.mtval == 0x30200073
        && t.mstatus.value == 0xF00000800 && t.pc == 0x80000100 && t.priv == .M) = true := by decide

theorem test_exec_sret :
    ends (start |> mode .S |> mstatusIs 0x2 |> epcs 0x80004000 0x80005000) 0x10200073#32
      (fun t => t.mstatus.value == 0xF00000020 && t.pc == 0x80005000 && t.priv == .U) = true ∧
    ends (start |> mode .S |> mstatusIs 0x400000) 0x10200073#32
      (fun t => t.mcause == 0x2 && t.mepc == 0x80000000 && t.mtval == 0x10200073
        && t.mstatus.value == 0xF00400800 && t.pc == 0x80000100 && t.priv == .M) = true := by decide

theorem test_exec_sfence_vma :
    ends (start |> mode .S) 0x12730073#32
      (fun t => t.mstatus.value == 0xF00000000 && t.pc == 0x80000004 && t.priv == .S) = true ∧
    ends (start |> mode .S |> mstatusIs 0x100000) 0x12000073#32
      (fun t => t.mcause == 0x2 && t.mepc == 0x80000000 && t.mtval == 0x12000073
        && t.mstatus.value == 0xF00100800 && t.pc == 0x80000100 && t.priv == .M) = true := by decide

theorem test_exec_wfi :
    ends (start |> mode .U) 0x10500073#32
      (fun t => t.mstatus.value == 0xF00000000 && t.pc == 0x80000004 && t.priv == .U) = true ∧
    ends (start |> mode .U |> mstatusIs 0x200000) 0x10500073#32
      (fun t => t.mcause == 0x2 && t.mepc == 0x80000000 && t.mtval == 0x10500073
        && t.mstatus.value == 0xF00200000 && t.pc == 0x80000100 && t.priv == .M) = true := by decide

/-! ## Witnesses: the hypotheses of the statements are met, each clause at a boundary -/

/-- Tables as in V12 of spec/95_test_vectors.md: entry 2 of the root a 1-GByte leaf, entry 0 a pointer to a table
whose entry 1 is a 2-MByte leaf and whose entry 0 is a pointer to a table of 4-KByte leaves. -/
def paged : State :=
  start |> put 0x80010010 8 0x200000CF |> put 0x80010000 8 0x20004401 |> put 0x80011000 8 0x20004801
    |> put 0x80011008 8 0x20080007 |> put 0x80012000 8 0x20008007 |> put 0x80012028 8 0x20009443
    |> put 0x80012030 8 0x20004801 |> put 0x80010018 8 0x04 |> put 0x80010020 8 0x200800CF
    |> put 0x80010028 8 0x200000DF |> satpIs 0x8000000000080010 |> mode .S

/-- A root table with the bad entries of level 2: V = 0 (an entry never written), W without R, a user page, a misaligned
superpage; and a leaf whose A is not set. -/
def faulty2 : State :=
  start |> put 0x80010020 8 0x200800CF |> put 0x80010028 8 0x200000DF |> put 0x80010030 8 0x2000000F
    |> put 0x80010038 8 5 |> satpIs 0x8000000000080010 |> mode .S

/-- The same in a level-1 table. -/
def faulty1 : State :=
  start |> put 0x80010000 8 0x20004401 |> put 0x80011018 8 5 |> put 0x80011020 8 0x200800DF
    |> put 0x80011028 8 0x200084CF |> put 0x80011030 8 0x2008000F |> satpIs 0x8000000000080010 |> mode .S

/-- The same in a level-0 table, with a pointer in place of the superpage. -/
def faulty0 : State :=
  start |> put 0x80010000 8 0x20004401 |> put 0x80011000 8 0x20004801 |> put 0x80012018 8 5
    |> put 0x80012020 8 0x200080DF |> put 0x80012030 8 0x20004801 |> put 0x80012038 8 0x2000800F
    |> satpIs 0x8000000000080010 |> mode .S

/-- The board answers loads of doublewords alone, in the `n` bytes from 0x80010000. -/
def answers (n : Nat) (s : State) : State :=
  { s with board := { s.board with
      regions := [{ base := 0x80010000, size := n, fetch := false, load := true, store := false, widths := [8] }] } }

/-- A state where SRET is legal in M mode. -/
def sretBoard : State := { start with board := { start.board with sretInMLegal := true } }

/-- A board that traps exceptions to the base in vectored mode. -/
def plainBoard : Board := { Board.default with vectorExceptions := false }

/-- An MRET where the first step fetches. -/
def mretNext : State := start.withFetchWord 32 0x30200073

/-- A WFI at a translated pc. -/
def userNext : State := faulty1 |> at_ 0xC00000 |> put 0x80200000 4 0x10500073

/-- x6 is -1 and x7 is 1. -/
def signs : State := start |> x 6 0xFFFFFFFFFFFFFFFF |> x 7 1

/-- x6 points into memory. -/
def buffer : State := start |> x 6 0x80002000

/-- x6 is the first address above the physical space. -/
def above : State := start |> x 6 0x100000000000000

theorem witness_DecodeOfEncodedInstruction :
    WellFormed (.jal 31 0x100000) ∧ WellFormed (.jal 0 0xFFFFE) ∧ WellFormed (.bgeu 31 0 0x1000) ∧
    WellFormed (.beq 0 31 0xFFE) ∧ WellFormed (.lui 31 0xFFFFF) := by
  unfold WellFormed; decide

theorem witness_EncodeOfDecodedWord :
    decodeWord 0x800000EF#32 = .ok (.jal 1 0x100000) ∧ decodeWord 0x7E730FE3#32 = .ok (.beq 6 7 0xFFE) := by decide

theorem witness_StepRunsTheDecodedInstruction :
    interruptTaken (start.withFetchWord 32 0x73) = none ∧
    fetchWord (start.withFetchWord 32 0x73) (start.withFetchWord 32 0x73).pc =
      .ok (0x73#32, start.withFetchWord 32 0x73) ∧ decodeWord 0x73#32 = .ok .ecall := by
  refine ⟨by decide, rfl, by decide⟩

theorem witness_StepRunsTheBytesAtThePc :
    interruptTaken mretNext = none ∧ translated mretNext mretNext.priv = false ∧
    physAccessible mretNext.board mretNext.pc 4 .fetch = true ∧
    responder mretNext.board mretNext.pc.toNat 4 = .ram ∧ mretNext.codeHistory = [] ∧
    HoldsBytes mretNext.mem mretNext.pc.toNat 4 0x30200073#64 ∧
    decodeWord ((0x30200073#64).extractLsb' 0 32) = .ok .mret := by
  unfold HoldsBytes; decide

/-- The same through a 2-MByte leaf whose A is not set. -/
theorem witness_StepRunsTheBytesAtThePc_translated :
    translateVa userNext userNext.pc .fetch userNext.priv =
      .ok { pa := 0x80200000, update := some (0x80011030, 0x2008004F) } ∧
    (physAccessible userNext.board 0x80200000 4 .fetch = true ∧ interruptTaken userNext = none ∧
      responder userNext.board (0x80200000#64).toNat 4 = .ram ∧
      (∀ h ∈ (applyUpdate userNext (some (0x80011030, 0x2008004F))).codeHistory,
        h.1 ≠ doublewordOf (0x80200000#64).toNat) ∧
      HoldsBytes (applyUpdate userNext (some (0x80011030, 0x2008004F))).mem (0x80200000#64).toNat 4 0x10500073#64 ∧
      decodeWord ((0x10500073#64).extractLsb' 0 32) = .ok .wfi ∧ userNext.mem.wf = true ∧
      responder userNext.board (0x80011030#64).toNat 8 = .ram) := by
  unfold HoldsBytes
  exact ⟨rfl, by decide⟩

theorem witness_FailedFetchOrDecodeTraps_translation :
    interruptTaken (paged |> at_ 0x4000000000) = none ∧
    translateVa (paged |> at_ 0x4000000000) 0x4000000000#64 .fetch .S = .error .instrPageFault ∧
    translateVa (deaf paged |> at_ 0x4000) 0x4000#64 .fetch .S = .error .instrAccessFault := by
  refine ⟨by decide, rfl, rfl⟩

theorem witness_FailedFetchOrDecodeTraps_address :
    interruptTaken (start |> at_ 0x100000000000000) = none ∧
    translateVa (start |> at_ 0x100000000000000) 0x100000000000000#64 .fetch .M =
      .ok { pa := 0x100000000000000, update := none } ∧
    physAccessible start.board 0x100000000000000#64 4 .fetch = false := by
  refine ⟨by decide, rfl, by decide⟩

theorem witness_FailedFetchOrDecodeTraps_word :
    interruptTaken start = none ∧ fetchWord start start.pc = .ok (0#32, start) ∧
    ∀ i : Instr, ¬i.rowMatches 0#32 := by
  refine ⟨by decide, rfl, fun i => ?_⟩
  cases i <;> (simp only [Instr.rowMatches, Instr.rowMask, Instr.rowMatch]; decide)

theorem witness_InterruptIsTakenBeforeTheFetch :
    interruptTaken { (start |> mode .U |> mieIs 0x80) with mtimecmp := 0 } = some .mti := by decide

theorem witness_InterruptChoiceFollowsConditionAndOrder :
    interruptTaken start = none ∧
    interruptTaken (start |> mode .S |> mieIs 0xA00 |> midelegIs 0x200 |> linesAre true true) = some .mei ∧
    interruptTaken (start |> mode .U |> mieIs 0x200 |> midelegIs 0x200 |> linesAre true true) = some .sei := by
  decide

theorem witness_EveryStepKeepsTheInvariant :
    (∃ t, Machine.Inv State.reset ∧ step State.reset = .next t) ∧
    ∃ t, Machine.Inv (paged |> at_ 0xFFFFFFFFFFFFFFFC) ∧ step (paged |> at_ 0xFFFFFFFFFFFFFFFC) = .next t := by
  refine ⟨⟨_, by unfold Machine.Inv; decide, rfl⟩, ⟨_, by unfold Machine.Inv; decide, rfl⟩⟩

theorem witness_InvariantHoldsAtReset : Board.default.resetVector.toNat % 4 = 0 := by decide

theorem witness_RegisterZeroIsConstant : (31 : Reg) ≠ 0 ∧ (0 : Reg) ≠ 31 ∧ (1 : Reg) ≠ 0 := by decide

theorem witness_JumpsComplete :
    (start.pc + (0xFFFFC#21).signExtend 64).toNat % 4 = 0 ∧ (start.pc + (0x100000#21).signExtend 64).toNat % 4 = 0 ∧
    (((start |> x 6 0x80001001).reg 6 + (0x800#12).signExtend 64) &&& ~~~1#64).toNat % 4 = 0 ∧
    (((start |> x 6 0).reg 6 + (0x7FD#12).signExtend 64) &&& ~~~1#64).toNat % 4 = 0 := by decide

/-- Each branch taken and not taken, with the largest and the smallest aligned offset. -/
theorem witness_BranchesComplete :
    (signs.pc + (0xFFC#13).signExtend 64).toNat % 4 = 0 ∧ (signs.pc + (0x1000#13).signExtend 64).toNat % 4 = 0 ∧
    decide (signs.reg 6 = signs.reg 6) = true ∧ decide (signs.reg 6 = signs.reg 7) = false ∧
    decide (signs.reg 6 ≠ signs.reg 7) = true ∧ decide (signs.reg 6 ≠ signs.reg 6) = false ∧
    (signs.reg 6).slt (signs.reg 7) = true ∧ (signs.reg 7).slt (signs.reg 6) = false ∧
    (signs.reg 7).ult (signs.reg 6) = true ∧ (signs.reg 6).ult (signs.reg 7) = false ∧
    (signs.reg 6).sle (signs.reg 7) = true ∧ (signs.reg 7).sle (signs.reg 6) = false ∧
    (signs.reg 7).ule (signs.reg 6) = true ∧ (signs.reg 6).ule (signs.reg 7) = false := by
  decide

theorem witness_MisalignedTargetsTrap :
    (signs.pc + (0x2#21).signExtend 64).toNat % 4 ≠ 0 ∧ (signs.pc + (0x1FFFFE#21).signExtend 64).toNat % 4 ≠ 0 ∧
    ((signs.reg 7 + (0x1#12).signExtend 64) &&& ~~~1#64).toNat % 4 ≠ 0 ∧
    (signs.pc + (0xFFE#13).signExtend 64).toNat % 4 ≠ 0 ∧ (signs.pc + (0x1002#13).signExtend 64).toNat % 4 ≠ 0 ∧
    signs.reg 6 = signs.reg 6 ∧ signs.reg 6 ≠ signs.reg 7 ∧ (signs.reg 6).slt (signs.reg 7) = true ∧
    (signs.reg 7).ult (signs.reg 6) = true ∧
    (signs.reg 7).slt (signs.reg 6) = false ∧ (signs.reg 6).ult (signs.reg 7) = false := by
  decide

/-- Loads at the lowest address, at the last of the physical space, and through each kind of leaf; the last sets A. -/
theorem witness_LoadsComplete :
    (start |> x 6 0xFFFFFFFFFFFFFF).mem.wf = true ∧ paged.mem.wf = true ∧
    DataOk start (start.reg 0 + (0#12).signExtend 64) .load 1 { pa := 0, update := none } ∧
    DataOk (start |> x 6 0xFFFFFFFFFFFFFF) ((start |> x 6 0xFFFFFFFFFFFFFF).reg 6 + (0#12).signExtend 64) .load 1
      { pa := 0xFFFFFFFFFFFFFF, update := none } ∧
    DataOk (start |> x 6 0xFFFFFFFFFFFFFF) ((start |> x 6 0xFFFFFFFFFFFFFF).reg 6 + (0xFFF#12).signExtend 64) .load 2
      { pa := 0xFFFFFFFFFFFFFE, update := none } ∧
    DataOk (start |> x 6 0x80000004) ((start |> x 6 0x80000004).reg 6 + (0x800#12).signExtend 64) .load 4
      { pa := 0x7FFFF804, update := none } ∧
    DataOk (start |> x 6 0x80000001) ((start |> x 6 0x80000001).reg 6 + (0x7FF#12).signExtend 64) .load 8
      { pa := 0x80000800, update := none } ∧
    DataOk (paged |> x 6 0xBFFFFFF8) ((paged |> x 6 0xBFFFFFF8).reg 6 + (0#12).signExtend 64) .load 8
      { pa := 0xBFFFFFF8, update := none } ∧
    DataOk (paged |> x 6 0) ((paged |> x 6 0).reg 6 + (0x7FF#12).signExtend 64) .load 1
      { pa := 0x800207FF, update := some (0x80012000, 0x20008047) } := by
  refine ⟨by decide, by decide, ⟨by decide, rfl, by decide⟩, ⟨by decide, rfl, by decide⟩, ⟨by decide, rfl, by decide⟩,
    ⟨by decide, rfl, by decide⟩, ⟨by decide, rfl, by decide⟩, ⟨by decide, rfl, by decide⟩, ⟨by decide, rfl, by decide⟩⟩

/-- Stores likewise; the last sets A and D. -/
theorem witness_StoresComplete :
    start.mem.wf = true ∧ paged.mem.wf = true ∧
    DataOk start (start.reg 0 + (0x7FF#12).signExtend 64) .store 1 { pa := 0x7FF, update := none } ∧
    DataOk (start |> x 6 0xFFFFFFFFFFFFFF) ((start |> x 6 0xFFFFFFFFFFFFFF).reg 6 + (0xFFF#12).signExtend 64) .store 2
      { pa := 0xFFFFFFFFFFFFFE, update := none } ∧
    DataOk (start |> x 6 0x80000004) ((start |> x 6 0x80000004).reg 6 + (0x800#12).signExtend 64) .store 4
      { pa := 0x7FFFF804, update := none } ∧
    DataOk start (start.reg 0 + (0#12).signExtend 64) .store 8 { pa := 0, update := none } ∧
    DataOk (paged |> x 6 0x200008) ((paged |> x 6 0x200008).reg 6 + (0#12).signExtend 64) .store 8
      { pa := 0x80200008, update := some (0x80011008, 0x200800C7) } := by
  refine ⟨by decide, by decide, ⟨by decide, rfl, by decide⟩, ⟨by decide, rfl, by decide⟩, ⟨by decide, rfl, by decide⟩,
    ⟨by decide, rfl, by decide⟩, ⟨by decide, rfl, by decide⟩⟩

theorem witness_StoredDoublewordLoadsBack :
    buffer.mem.wf = true ∧ translated buffer buffer.dataPriv = false ∧ (5 : Reg) ≠ 0 ∧
    (buffer.reg 6 + (0x7F8#12).signExtend 64).toNat % 8 = 0 ∧
    buffer.reg 6 + (0x7F8#12).signExtend 64 = buffer.reg 6 + (0x7F8#12).signExtend 64 + BitVec.ofNat 64 0 ∧
    buffer.reg 6 + (0x7FF#12).signExtend 64 = buffer.reg 6 + (0x7F8#12).signExtend 64 + BitVec.ofNat 64 7 ∧
    physAccessible buffer.board (buffer.reg 6 + (0x7F8#12).signExtend 64) 8 .store = true ∧
    physAccessible buffer.board (buffer.reg 6 + (0x7F8#12).signExtend 64) 8 .load = true ∧
    physAccessible buffer.board (buffer.reg 6 + (0x7FF#12).signExtend 64) 1 .load = true ∧
    physAccessible buffer.board (buffer.reg 6 + (0x7F8#12).signExtend 64) 1 .load = true ∧
    responder buffer.board (buffer.reg 6 + (0x7F8#12).signExtend 64).toNat 8 = .ram ∧
    responder buffer.board (buffer.reg 6 + (0x7FF#12).signExtend 64).toNat 1 = .ram ∧
    responder buffer.board (buffer.reg 6 + (0x7F8#12).signExtend 64).toNat 1 = .ram ∧
    ∃ t, exec (.sd 6 7 0x7F8) buffer = .next t := by
  refine ⟨by decide, by decide, by decide, by decide, by decide, by decide, by decide, by decide, by decide, by decide,
    by decide, by decide, by decide, ⟨_, rfl⟩⟩

/-- The three ways a load and a store fail: misaligned, untranslatable, not answered. -/
theorem witness_FailedDataAccessTraps :
    dataAccess (start |> x 6 0x1001) (.lh 5 6 0) = some (.load, 0x1001#64, 2) ∧
    dataAccess (start |> x 6 0x1007) (.scD 0 0 5 6 7) = some (.store, 0x1007#64, 8) ∧
    (0x1001#64).toNat % 2 ≠ 0 ∧ (0x1007#64).toNat % 8 ≠ 0 ∧
    dataAccess (paged |> x 6 0x4000000000) (.lb 5 6 0) = some (.load, 0x4000000000#64, 1) ∧
    translateVa (paged |> x 6 0x4000000000) 0x4000000000#64 .load (paged |> x 6 0x4000000000).dataPriv =
      .error .loadPageFault ∧
    dataAccess (deaf paged |> x 6 0x1000) (.amoaddD 1 1 5 6 7) = some (.store, 0x1000#64, 8) ∧
    translateVa (deaf paged |> x 6 0x1000) 0x1000#64 .store (deaf paged |> x 6 0x1000).dataPriv =
      .error .storeAccessFault ∧
    dataAccess (start |> x 6 0x100000000000000) (.ld 5 6 0) = some (.load, 0x100000000000000#64, 8) ∧
    translateVa (start |> x 6 0x100000000000000) 0x100000000000000#64 .load .M =
      .ok { pa := 0x100000000000000, update := none } ∧
    physAccessible start.board 0x100000000000000#64 8 .load = false ∧
    physAccessible start.board 0x100000000000000#64 1 .store = false := by
  refine ⟨by decide, by decide, by decide, by decide, by decide, rfl, by decide, rfl, by decide, rfl, by decide,
    by decide⟩

theorem witness_LoadReservedAndStoreConditionalComplete :
    start.mem.wf = true ∧
    DataOk start (start.reg 0) .load 4 { pa := 0, update := none } ∧
    DataOk start (start.reg 0) .load 8 { pa := 0, update := none } ∧
    DataOk (start |> x 6 0xFFFFFFFFFFFFFC) ((start |> x 6 0xFFFFFFFFFFFFFC).reg 6) .store 4
      { pa := 0xFFFFFFFFFFFFFC, update := none } ∧
    DataOk (paged |> x 6 0x200000) ((paged |> x 6 0x200000).reg 6) .store 8
      { pa := 0x80200000, update := some (0x80011008, 0x200800C7) } := by
  refine ⟨by decide, ⟨by decide, rfl, by decide⟩, ⟨by decide, rfl, by decide⟩, ⟨by decide, rfl, by decide⟩,
    ⟨by decide, rfl, by decide⟩⟩

theorem witness_AtomicWordsComplete :
    start.mem.wf = true ∧ DataOk start (start.reg 0) .store 4 { pa := 0, update := none } ∧
    DataOk (start |> x 6 0xFFFFFFFFFFFFFC) ((start |> x 6 0xFFFFFFFFFFFFFC).reg 6) .store 4
      { pa := 0xFFFFFFFFFFFFFC, update := none } := by
  refine ⟨by decide, ⟨by decide, rfl, by decide⟩, ⟨by decide, rfl, by decide⟩⟩

theorem witness_AtomicDoublewordsComplete :
    start.mem.wf = true ∧ DataOk start (start.reg 0) .store 8 { pa := 0, update := none } ∧
    DataOk (start |> x 6 0xFFFFFFFFFFFFF8) ((start |> x 6 0xFFFFFFFFFFFFF8).reg 6) .store 8
      { pa := 0xFFFFFFFFFFFFF8, update := none } := by
  refine ⟨by decide, ⟨by decide, rfl, by decide⟩, ⟨by decide, rfl, by decide⟩⟩

/-- A fetch address in memory, with no older version of it and with one; a write that memory answers and one that a
device answers; a fetch that sets A; a store that sets A and D. -/
theorem witness_StaleFetchIsConfined :
    (responder start.board (0x80000004#64).toNat 4 = .ram ∧
      (∀ h ∈ start.codeHistory, h.1 ≠ doublewordOf (0x80000004#64).toNat) ∧
      ∃ h ∈ (physWrite start 0x80000004#64 4 5).codeHistory, h.1 = doublewordOf (0x80000004#64).toNat) ∧
    (responder start.board (0x80000004#64).toNat 8 = .ram ∧ responder start.board 0xFFFFFFFFFE0008 8 ≠ .ram) ∧
    responder start.board (0xFFFFFFFFFE0010#64).toNat 4 ≠ .ram ∧
    (∃ w u, fetchWord faulty1 0xC00000#64 = .ok (w, u)) ∧
    (∃ t, exec (.sd 6 7 0) (paged |> x 6 0x200000) = .next t) ∧ ∃ t, exec (.fenceI 0 0 0) start = .next t := by
  refine ⟨by decide, by decide, by decide, ⟨_, _, rfl⟩, ⟨_, rfl⟩, ⟨_, rfl⟩⟩

theorem witness_SfenceVmaAndWfiComplete :
    (start.priv = .M ∨ (start.priv = .S ∧ (csrRead start .mstatus).getLsbD 20 = false)) ∧
    ((mode .S start).priv = .S ∧ (csrRead (mode .S start) .mstatus).getLsbD 20 = false) ∧
    (start |> mstatusIs 0x200000).priv = .M ∧ (csrRead (mode .U start) .mstatus).getLsbD 21 = false := by decide

/-- U7, old A and D state: a load may draw an older entry with A = D = 0 while memory holds A = D = 1, and not one that
lacks only the A that the load sets again; on a board whose tables take no store it may draw that one too. -/
theorem test_old_AD_state_is_drawn :
    staleEntries { paged with pteHistory := [(0x80012000, 0x20008007)] } .load 0x80012000 0x200080C7 = [0x20008007] ∧
    staleEntries { paged with pteHistory := [(0x80012000, 0x20008007)] } .load 0x80012000 0x20008047 = [] ∧
    staleEntries { answers 12288 paged with pteHistory := [(0x80012000, 0x20008007)] } .load 0x80012000 0x20008047 =
      [0x20008007] := by decide

theorem witness_StaleTranslationIsConfined :
    0x20008007#64 ∈
      staleEntries { paged with pteHistory := [(0x80012000, 0x20008007)] } .load 0x80012000 0x200080C7 ∧
    (TlbClean start ∧ ¬TlbClean (physWrite start 0x80012000#64 8 5)) ∧
    ((csrRead paged .satp).extractLsb' 60 4 = 8#4 ∧
      csrRead (csrWrite paged 0x8000000000080011#64 .satp) .satp ≠ csrRead paged .satp) ∧
    (∃ w u, fetchWord faulty1 0xC00000#64 = .ok (w, u)) ∧
    (∃ t, exec (.sd 6 7 0) (paged |> x 6 0x200000) = .next t) ∧
    (∃ t, exec (.csrrw 0 0x180 6) (paged |> x 6 0) = .next t) ∧ ∃ t, exec (.sfenceVma 6 7) paged = .next t := by
  refine ⟨by rw [test_old_AD_state_is_drawn.1]; decide, by unfold TlbClean; decide, by decide, ⟨_, _, rfl⟩, ⟨_, rfl⟩, ⟨_, rfl⟩, ⟨_, rfl⟩⟩

theorem witness_PrivilegedInstructionsAreIllegalBelow :
    (mode .S start).priv ≠ .M ∧ (mode .U start).priv = .U ∧
    ((start |> mode .S |> mstatusIs 0x400000).priv = .S ∧
      (csrRead (start |> mode .S |> mstatusIs 0x400000) .mstatus).getLsbD 22 = true) ∧
    (start.priv = .M ∧ start.board.sretInMLegal = false) ∧
    ((start |> mode .S |> mstatusIs 0x100000).priv = .S ∧
      (csrRead (start |> mode .S |> mstatusIs 0x100000) .mstatus).getLsbD 20 = true) ∧
    ((start |> mode .U |> mstatusIs 0x200000).priv ≠ .M ∧
      (csrRead (start |> mode .U |> mstatusIs 0x200000) .mstatus).getLsbD 21 = true) := by decide

theorem witness_TrapReturnsComplete :
    start.priv = .M ∧ ((mode .S start).priv = .S ∧ (csrRead (mode .S start) .mstatus).getLsbD 22 = false) ∧
    (sretBoard.priv = .M ∧ sretBoard.board.sretInMLegal = true) := by decide

theorem witness_EnvironmentCallsTrap :
    (mode .U start).priv = .U ∧ (mode .S start).priv = .S ∧ start.priv = .M := by decide

theorem witness_CsrAccessCheck :
    (0xC00#12, .cycle) ∈ csrTable ∧ (0x323#12, .mhpmevent3) ∈ csrTable ∧ csrTable.length = 39 ∧
    (∀ c, (0x7B0#12, c) ∉ csrTable) ∧ csrCheck start 0x7B0#12 false = none ∧
    csrCheck (mode .U start) 0x100#12 false = none ∧
    csrCheck start 0xF14#12 true = none ∧ csrCheck (start |> mode .S |> mstatusIs 0x100000) 0x180#12 false = none ∧
    csrCheck start 0x340#12 true = some .mscratch ∧ csrCheck (mode .U start) 0xC00#12 false = some .cycle := by
  refine ⟨by decide, by decide, rfl, fun c => by simp [csrTable], ?_⟩
  decide

theorem witness_CsrInstructionsComplete :
    csrCheck start 0x340#12 true = some .mscratch ∧
    csrCheck start 0xB02#12 (decide ((31 : Reg) ≠ 0#5)) = some .minstret ∧
    csrCheck start 0x344#12 (decide ((1 : Reg) ≠ 0#5)) = some .mip ∧
    csrCheck (mode .U start) 0xC00#12 (decide ((0 : Reg) ≠ 0#5)) = some .cycle ∧
    csrCheck (mode .S start) 0x180#12 (decide ((31#5) ≠ 0#5)) = some .satp := by decide

theorem witness_CsrWritesAreMasked :
    0xF#64 = BitVec.ofNat 64 (Exc.code .storePageFault) ∧ 0#64 = BitVec.ofNat 64 (Exc.code .instrMisaligned) ∧
    0x800000000000000B#64 = 0x8000000000000000#64 + BitVec.ofNat 64 (Irq.code .mei) ∧
    0x8000000000000001#64 = 0x8000000000000000#64 + BitVec.ofNat 64 (Irq.code .ssi) ∧
    0x8000000000000005#64 = 0x8000000000000000#64 + BitVec.ofNat 64 (Irq.code .sti) ∧
    0x8000000000000009#64 = 0x8000000000000000#64 + BitVec.ofNat 64 (Irq.code .sei) := by decide

theorem witness_CsrWriteLeavesOtherCsrs :
    ¬Linked .mstatus .mie ∧ ¬Linked .mcycle .minstret ∧ ¬Linked .cycle .mcycle ∧ ¬Linked .sip .sie := by
  refine ⟨?_, ?_, ?_, ?_⟩
  all_goals (unfold Linked; decide)

theorem witness_IdentityCsrsAreConstant : start.priv = .M := by decide

theorem witness_HardwiredAndPlatformCsrs :
    Csr.hpmcounter3 ∈ [Csr.hpmcounter3, .hpmcounter4, .mhpmcounter3, .mhpmcounter4, .mhpmevent3, .sedeleg, .sideleg] ∧
    Csr.sideleg ∈ [Csr.hpmcounter3, .hpmcounter4, .mhpmcounter3, .mhpmcounter4, .mhpmevent3, .sedeleg, .sideleg] := by
  decide

theorem witness_TakingATrap :
    (start.priv = .M ∨ delegationBit start (.exc .breakpoint) = false) ∧
    delegationBit (start |> mode .U |> medelegIs 0xB1FF) (.exc .ecallS) = false ∧
    ((start |> mode .U |> medelegIs 0x8000).priv ≠ .M ∧
      delegationBit (start |> mode .U |> medelegIs 0x8000) (.exc .storePageFault) = true) ∧
    ((start |> mode .S |> midelegIs 0x200).priv ≠ .M ∧
      delegationBit (start |> mode .S |> midelegIs 0x200) (.irq .sei) = true) := by decide

theorem witness_TrapVector :
    ({ base := 0x20000040#62, vectored := false } : Tvec).value.getLsbD 0 = false ∧
    ({ base := 0x3FFFFFFFFFFFFFFF#62, vectored := true } : Tvec).value.getLsbD 0 = true ∧
    (Cause.irq .mei).isInterrupt = true ∧ Board.default.vectorExceptions = true ∧
    (Cause.exc .storePageFault).isInterrupt = false ∧ plainBoard.vectorExceptions = false := by decide

theorem witness_OnlyTrapsAndReturnsChangeTheMode :
    (∃ t, step (start.withFetchWord 32 0x30200073) = .next t ∧ t.priv = .U) ∧
    (start |> mode .S |> medelegIs 0x200).priv = .S ∧
    (csrRead (start |> mode .S |> medelegIs 0x200) .medeleg).getLsbD 9 = true ∧
    ∃ t, exec .ecall (start |> mode .S |> medelegIs 0x200) = .next t := by
  refine ⟨⟨_, rfl, by decide⟩, by decide, by decide, ⟨_, rfl⟩⟩

theorem witness_UserModeLeavesTheSystemAlone :
    (mode .U start).priv = .U ∧ (∃ t, exec .wfi (mode .U start) = .next t) ∧
    ∃ t, exec .mret (mode .U start) = .next t := by
  refine ⟨by decide, ⟨_, rfl⟩, ⟨_, rfl⟩⟩

theorem witness_SupervisorModeLeavesMachineStateAlone :
    (mode .S start).priv = .S ∧ (∃ t, exec (.csrrw 5 0x100 6) (mode .S start) = .next t) ∧
    ∃ t, exec .sret (mode .S start) = .next t := by
  refine ⟨by decide, ⟨_, rfl⟩, ⟨_, rfl⟩⟩

theorem witness_TranslationIsActiveOnlyBelowMachineMode :
    translated start .U = false ∧ translated paged .M = false ∧ translated paged .S = true := by decide

/-- The walk ends at a level-2, a level-1 and a level-0 leaf: a fetch, a store whose entry has A and D set in memory
that answers no store, a store that must set A and D, a load that must set A. -/
theorem witness_PageWalkTranslates :
    translated paged .S = true ∧ TlbClean paged ∧
    (0xBFFFFFFF#64 = ((0xBFFFFFFF#64).extractLsb' 0 39).signExtend 64 ∧
      EntryIs paged (pageAddress paged.satp.ppn) 0xBFFFFFFF#64 2 0x200000CF#64 ∧
      LeafOk paged (pteAddress (pageAddress paged.satp.ppn) 0xBFFFFFFF#64 2) 0x200000CF#64 .fetch .S ∧
      (0x200000CF#64).extractLsb' 10 18 = 0#18 ∧
      EntryIs (answers 4096 paged) (pageAddress paged.satp.ppn) 0xBFFFFFFF#64 2 0x200000CF#64 ∧
      LeafOk (answers 4096 paged) (pteAddress (pageAddress paged.satp.ppn) 0xBFFFFFFF#64 2) 0x200000CF#64 .store .S) ∧
    (0x200000#64 = ((0x200000#64).extractLsb' 0 39).signExtend 64 ∧
      EntryIs paged (pageAddress paged.satp.ppn) 0x200000#64 2 0x20004401#64 ∧ IsPointer 0x20004401#64 ∧
      EntryIs paged (pageAddress (ptePpn 0x20004401#64)) 0x200000#64 1 0x20080007#64 ∧
      LeafOk paged (pteAddress (pageAddress (ptePpn 0x20004401#64)) 0x200000#64 1) 0x20080007#64 .store .S ∧
      (0x20080007#64).extractLsb' 10 9 = 0#9) ∧
    (0#64 = ((0#64).extractLsb' 0 39).signExtend 64 ∧
      EntryIs paged (pageAddress paged.satp.ppn) 0#64 2 0x20004401#64 ∧
      EntryIs paged (pageAddress (ptePpn 0x20004401#64)) 0#64 1 0x20004801#64 ∧ IsPointer 0x20004801#64 ∧
      EntryIs paged (pageAddress (ptePpn 0x20004801#64)) 0#64 0 0x20008007#64 ∧
      LeafOk paged (pteAddress (pageAddress (ptePpn 0x20004801#64)) 0#64 0) 0x20008007#64 .load .S) := by
  unfold TlbClean EntryIs LeafOk IsPointer IsLeaf HoldsBytes
  repeat' apply And.intro
  all_goals decide

/-- The walk fails at the root: the lowest address that is not canonical, an entry that cannot be read, V = 0, W
without R, a user page in S mode, a misaligned superpage, an A bit that cannot be set. -/
theorem witness_PageWalkFaults :
    translated faulty2 .S = true ∧ translated (deaf faulty2) .S = true ∧ TlbClean faulty2 ∧ TlbClean (deaf faulty2) ∧
    0x4000000000#64 ≠ ((0x4000000000#64).extractLsb' 0 39).signExtend 64 ∧
    physAccessible (deaf faulty2).board (pteAddress (pageAddress (deaf faulty2).satp.ppn) 0#64 2) 8 .load = false ∧
    (EntryIs faulty2 (pageAddress faulty2.satp.ppn) 0x40000000#64 2 0#64 ∧ BadEntry faulty2 0#64 .load .S 2) ∧
    (EntryIs faulty2 (pageAddress faulty2.satp.ppn) 0x1C0000000#64 2 5#64 ∧ BadEntry faulty2 5#64 .store .S 2) ∧
    (EntryIs faulty2 (pageAddress faulty2.satp.ppn) 0x140000000#64 2 0x200000DF#64 ∧
      BadEntry faulty2 0x200000DF#64 .fetch .S 2) ∧
    (EntryIs faulty2 (pageAddress faulty2.satp.ppn) 0x100000000#64 2 0x200800CF#64 ∧
      BadEntry faulty2 0x200800CF#64 .load .S 2) ∧
    (EntryIs (answers 4096 faulty2) (pageAddress faulty2.satp.ppn) 0x180000000#64 2 0x2000000F#64 ∧
      LockedEntry (answers 4096 faulty2) (pteAddress (pageAddress faulty2.satp.ppn) 0x180000000#64 2) 0x2000000F#64
        .load .S 2) := by
  unfold TlbClean EntryIs HoldsBytes BadEntry LockedEntry SuperpageAligned IsPointer IsLeaf
  repeat' apply And.intro
  all_goals decide

/-- The walk fails at level 1, in the same ways. -/
theorem witness_PageWalkFaults_level1 :
    (EntryIs faulty1 (pageAddress faulty1.satp.ppn) 0x400000#64 2 0x20004401#64 ∧ IsPointer 0x20004401#64 ∧
      EntryIs faulty1 (pageAddress (ptePpn 0x20004401#64)) 0x400000#64 1 0#64 ∧ BadEntry faulty1 0#64 .load .S 1) ∧
    (EntryIs faulty1 (pageAddress (ptePpn 0x20004401#64)) 0x600000#64 1 5#64 ∧ BadEntry faulty1 5#64 .store .S 1) ∧
    (EntryIs faulty1 (pageAddress (ptePpn 0x20004401#64)) 0x800000#64 1 0x200800DF#64 ∧
      BadEntry faulty1 0x200800DF#64 .fetch .S 1) ∧
    (EntryIs faulty1 (pageAddress (ptePpn 0x20004401#64)) 0xA00000#64 1 0x200084CF#64 ∧
      BadEntry faulty1 0x200084CF#64 .load .S 1) ∧
    (EntryIs (answers 4096 faulty1) (pageAddress faulty1.satp.ppn) 0x400000#64 2 0x20004401#64 ∧
      physAccessible (answers 4096 faulty1).board (pteAddress (pageAddress (ptePpn 0x20004401#64)) 0x400000#64 1) 8
        .load = false) ∧
    (EntryIs (answers 8192 faulty1) (pageAddress (ptePpn 0x20004401#64)) 0xC00000#64 1 0x2008000F#64 ∧
      LockedEntry (answers 8192 faulty1) (pteAddress (pageAddress (ptePpn 0x20004401#64)) 0xC00000#64 1)
        0x2008000F#64 .store .S 1) := by
  unfold EntryIs HoldsBytes BadEntry LockedEntry SuperpageAligned IsPointer IsLeaf
  repeat' apply And.intro
  all_goals decide

/-- The walk fails at level 0, in the same ways but for the superpage, and at a pointer. -/
theorem witness_PageWalkFaults_level0 :
    (EntryIs faulty0 (pageAddress (ptePpn 0x20004401#64)) 0x2000#64 1 0x20004801#64 ∧ IsPointer 0x20004801#64 ∧
      EntryIs faulty0 (pageAddress (ptePpn 0x20004801#64)) 0x2000#64 0 0#64 ∧ BadEntry faulty0 0#64 .load .S 0) ∧
    (EntryIs faulty0 (pageAddress (ptePpn 0x20004801#64)) 0x3000#64 0 5#64 ∧ BadEntry faulty0 5#64 .store .S 0) ∧
    (EntryIs faulty0 (pageAddress (ptePpn 0x20004801#64)) 0x4000#64 0 0x200080DF#64 ∧
      BadEntry faulty0 0x200080DF#64 .fetch .S 0) ∧
    (EntryIs faulty0 (pageAddress (ptePpn 0x20004801#64)) 0x6000#64 0 0x20004801#64 ∧
      BadEntry faulty0 0x20004801#64 .load .S 0) ∧
    (EntryIs (answers 8192 faulty0) (pageAddress (ptePpn 0x20004401#64)) 0x2000#64 1 0x20004801#64 ∧
      physAccessible (answers 8192 faulty0).board (pteAddress (pageAddress (ptePpn 0x20004801#64)) 0x2000#64 0) 8
        .load = false) ∧
    (EntryIs (answers 12288 faulty0) (pageAddress (ptePpn 0x20004801#64)) 0x7000#64 0 0x2000800F#64 ∧
      LockedEntry (answers 12288 faulty0) (pteAddress (pageAddress (ptePpn 0x20004801#64)) 0x7000#64 0) 0x2000800F#64
        .fetch .S 0) := by
  unfold EntryIs HoldsBytes BadEntry LockedEntry SuperpageAligned IsPointer IsLeaf
  repeat' apply And.intro
  all_goals decide

/-- The device registers, reached by an access alone and by a load or a store. -/
theorem witness_DeviceRegistersAnswer :
    start.board.wellFormed = true ∧ (0xFFFFFFFFFE0000#64).toNat = start.board.mtimeAddr ∧
    (0xFFFFFFFFFE0008#64).toNat = start.board.mtimecmpAddr ∧ (0xFFFFFFFFFE0010#64).toNat = start.board.msipAddr ∧
    0xFFFFFFFFFE0000#64 = (start |> x 6 0xFFFFFFFFFE0000).reg 6 + (0#12).signExtend 64 ∧
    DataOk (start |> x 6 0xFFFFFFFFFE0000) 0xFFFFFFFFFE0000#64 .load 8 { pa := 0xFFFFFFFFFE0000#64, update := none } ∧
    DataOk (start |> x 6 0xFFFFFFFFFE0000) 0xFFFFFFFFFE0000#64 .store 8 { pa := 0xFFFFFFFFFE0000#64, update := none } ∧
    0xFFFFFFFFFE0008#64 = (start |> x 6 0xFFFFFFFFFE0000).reg 6 + (8#12).signExtend 64 ∧
    DataOk (start |> x 6 0xFFFFFFFFFE0000) 0xFFFFFFFFFE0008#64 .load 8 { pa := 0xFFFFFFFFFE0008#64, update := none } ∧
    DataOk (start |> x 6 0xFFFFFFFFFE0000) 0xFFFFFFFFFE0008#64 .store 8 { pa := 0xFFFFFFFFFE0008#64, update := none } ∧
    0xFFFFFFFFFE0010#64 = (start |> x 6 0xFFFFFFFFFE0000).reg 6 + (16#12).signExtend 64 ∧
    DataOk (start |> x 6 0xFFFFFFFFFE0000) 0xFFFFFFFFFE0010#64 .load 4 { pa := 0xFFFFFFFFFE0010#64, update := none } ∧
    DataOk (start |> x 6 0xFFFFFFFFFE0000) 0xFFFFFFFFFE0010#64 .store 4 { pa := 0xFFFFFFFFFE0010#64, update := none } := by
  refine ⟨by decide, by decide, by decide, by decide, by decide, ⟨by decide, rfl, by decide⟩, ⟨by decide, rfl, by decide⟩,
    by decide, ⟨by decide, rfl, by decide⟩, ⟨by decide, rfl, by decide⟩, by decide, ⟨by decide, rfl, by decide⟩,
    ⟨by decide, rfl, by decide⟩⟩

theorem witness_NoPhysicalAddressAboveTheSpace :
    2 ^ 56 < (0xFFFFFFFFFFFFF9#64).toNat + 8 ∧ 2 ^ 56 < (0x100000000000000#64).toNat + 8 ∧
    0x100000000000000#64 = above.reg 6 + (0#12).signExtend 64 ∧ (0x100000000000000#64).toNat % 8 = 0 ∧
    translated above above.dataPriv = false := by
  decide

theorem witness_TimeBetweenSteps :
    (csrRead { start with mcountinhibit := 1 } .mcountinhibit).getLsbD 0 = true ∧ start.plicProgrammed = false := by
  decide

end Sys2Proof.Tests
end

-- ==== Proofs of the CSR constants and counters (spec/10_state.md) ====
section
/-! PROOFS. The identity CSRs read as constants (R40, R41, R44), and the user-level counters are read-only copies
(R82, R84). Both rest on one rule for the access check of R383, stated first. -/

namespace Sys2Proof.Machine

/-! ## The access check (R383) -/

/-- An access is legal exactly when the CSR exists, the mode is high enough, a write is not to a read-only CSR, and
mstatus.TVM does not keep S mode from satp. -/
theorem csrCheck_eq_some_iff {s : State} {a : CsrAddr} {writes : Bool} {c : Csr} :
    csrCheck s a writes = some c ↔
      csrOf a = some c ∧ csrLevel c ≤ s.priv.level ∧ ¬(writes = true ∧ csrReadOnly c = true) ∧
      ¬(c = .satp ∧ s.priv = .S ∧ s.mstatus.tvm = true) := by
  unfold csrCheck
  cases csrOf a with
  | none => simp
  | some d =>
    dsimp only
    constructor
    · intro h
      split_ifs at h with hlow hro htvm
      obtain rfl : d = c := Option.some.inj h
      exact ⟨rfl, Nat.not_lt.1 hlow, by simpa using hro, by simpa [and_assoc] using htvm⟩
    · rintro ⟨hd, hle, hro, htvm⟩
      obtain rfl : d = c := Option.some.inj hd
      rw [if_neg (Nat.not_lt.2 hle), if_neg (by simpa using hro), if_neg (by simpa [and_assoc] using htvm)]

/-- A number with bits 11:10 = 11 names a read-only CSR or none, so no mode writes it (R31). -/
theorem csrCheck_write_readOnly (s : State) {a : CsrAddr} (ha : a.extractLsb' 10 2 = 0b11#2) :
    csrCheck s a true = none := by
  refine Option.eq_none_iff_forall_ne_some.2 fun c h => ?_
  obtain ⟨hc, -, hro, -⟩ := csrCheck_eq_some_iff.1 h
  obtain ⟨-, hclass, -⟩ := csrOf_class hc
  exact hro ⟨rfl, by simpa [ha] using hclass⟩

/-- Every mode reads a CSR of level 0: the counter-enable registers do not enter the check (R64, R75, R82). -/
theorem csrCheck_read_of_level_zero (s : State) {a : CsrAddr} {c : Csr} (ha : csrOf a = some c)
    (hc : csrLevel c = 0) : csrCheck s a false = some c := by
  refine csrCheck_eq_some_iff.2 ⟨ha, by omega, by simp, ?_⟩
  rintro ⟨rfl, -⟩
  cases hc

theorem csrLevel_le_machine (c : Csr) : csrLevel c ≤ Priv.level .M := by
  cases c <;> decide

/-- M mode accesses every CSR, and writes each that is not read-only. -/
theorem csrCheck_of_machine {s : State} {a : CsrAddr} {c : Csr} {writes : Bool} (hM : s.priv = .M)
    (ha : csrOf a = some c) (hw : ¬(writes = true ∧ csrReadOnly c = true)) : csrCheck s a writes = some c :=
  csrCheck_eq_some_iff.2 ⟨ha, hM ▸ csrLevel_le_machine c, hw, by simp [hM]⟩

/-! ## What the constants and the copies read as -/

@[simp] theorem csrRead_misa (s : State) : csrRead s .misa = 0x8000000000000101#64 := rfl
@[simp] theorem csrRead_mvendorid (s : State) : csrRead s .mvendorid = 0#64 := rfl
@[simp] theorem csrRead_mhartid (s : State) : csrRead s .mhartid = 1#64 := rfl
@[simp] theorem csrWrite_misa (s : State) (v : Word) : csrWrite s v .misa = s := rfl

theorem csrRead_cycle_eq_mcycle (s : State) : csrRead s .cycle = csrRead s .mcycle := rfl
theorem csrRead_instret_eq_minstret (s : State) : csrRead s .instret = csrRead s .minstret := rfl

/-! ## The obligations -/

/-- Settles O46: the three read alike in every state, so also in the state a CSR write makes; misa is writable and
hardwired, the other two have read-only numbers. -/
theorem identityCsrsAreConstant : Obligations.IdentityCsrsAreConstant := by
  intro s v c
  have misa_write (hM : s.priv = .M) : csrCheck s 0x301#12 true = some .misa :=
    csrCheck_of_machine hM (by decide) (by decide)
  exact ⟨csrRead_misa s, csrRead_mvendorid s, csrRead_mhartid s,
    csrRead_misa _, csrRead_mvendorid _, csrRead_mhartid _,
    misa_write, csrWrite_misa s v, csrCheck_write_readOnly s (by decide), csrCheck_write_readOnly s (by decide)⟩

/-- Settles O47: cycle and instret show the storage of mcycle and minstret, their level is 0, and their numbers are
read-only ones. -/
theorem countersAreReadableCopies : Obligations.CountersAreReadableCopies := by
  intro s
  exact ⟨csrRead_cycle_eq_mcycle s, csrRead_instret_eq_minstret s,
    csrCheck_read_of_level_zero s (by decide) rfl, csrCheck_read_of_level_zero s (by decide) rfl,
    csrCheck_write_readOnly s (by decide), csrCheck_write_readOnly s (by decide)⟩

end Sys2Proof.Machine
end

-- ==== Proofs of the conditions of translation (spec/20_memory.md R127, R140) ====
section
/-! PROOFS. When an access is translated and with which privilege (R127, R140). The clause about fetches rests on one
fact: of the two fields MPRV and MPP the walk reads neither, and the A update it may end with keeps both. -/

namespace Sys2Proof.Machine

/-! ## The condition (R140) -/

/-- satp.MODE reads as 8 exactly where Sv39 is on; the only other stored mode is 0 (R80). -/
theorem Satp.value_mode_eq_eight_iff (p : Satp) : p.value.extractLsb' 60 4 = 8#4 ↔ p.sv39 = true := by
  have mode : p.value.extractLsb' 60 4 = if p.sv39 then 8#4 else 0#4 := by
    refine BitVec.eq_of_getLsbD_eq fun i hi => ?_
    rw [BitVec.getLsbD_extractLsb', Satp.value_getLsbD p (by omega)]
    interval_cases i <;> cases p.sv39 <;> rfl
  rw [mode]
  cases p.sv39 <;> decide

theorem Priv.ne_machine_iff (p : Priv) : p ≠ .M ↔ p = .S ∨ p = .U := by
  cases p <;> decide

theorem translated_iff (s : State) (p : Priv) :
    translated s p = true ↔ (csrRead s .satp).extractLsb' 60 4 = 8#4 ∧ (p = .S ∨ p = .U) := by
  change _ ↔ s.satp.value.extractLsb' 60 4 = 8#4 ∧ _
  rw [Satp.value_mode_eq_eight_iff, ← Priv.ne_machine_iff]
  simp [translated]

theorem translateVa_untranslated {s : State} {p : Priv} (h : translated s p = false) (va : Word) (t : Access) :
    translateVa s va t p = .ok { pa := va, update := none } := by
  simp [translateVa, h]

/-! ## The privilege of a data access (R127) -/

theorem dataPriv_eq (s : State) :
    s.dataPriv = if (csrRead s .mstatus).getLsbD 17 then s.mstatus.mpp else s.priv := by
  rw [mstatus_mprv, State.dataPriv]

/-! ## A fetch reads neither MPRV nor MPP (R127) -/

/-- A state with other values in the two fields that decide the privilege of a data access. -/
def State.withDataPriv (s : State) (b : Bool) (m : Priv) : State :=
  { s with mstatus := { s.mstatus with mprv := b, mpp := m } }

section
variable (s : State) (b : Bool) (m : Priv)

theorem permitted_withDataPriv (pte : Word) (t : Access) (p : Priv) :
    permitted (s.withDataPriv b m).mstatus pte t p = permitted s.mstatus pte t p := rfl

theorem walkLeaf_withDataPriv (va : Word) (t : Access) (p : Priv) (i : Nat) (ea cur pte : Word) :
    walkLeaf (s.withDataPriv b m) va t p i ea cur pte = walkLeaf s va t p i ea cur pte := by
  simp only [walkLeaf, permitted_withDataPriv]
  rfl

theorem walkLevel_withDataPriv (va : Word) (t : Access) (p : Priv) (i : Nat) (a : Word)
    (next : Word → Except Exc Translation) :
    walkLevel (s.withDataPriv b m) va t p i a next = walkLevel s va t p i a next := by
  simp only [walkLevel, walkLeaf_withDataPriv]
  rfl

theorem walk_withDataPriv (va : Word) (t : Access) (p : Priv) (i : Nat) :
    walk (s.withDataPriv b m) va t p i = walk s va t p i := by
  funext a
  induction i generalizing a with
  | zero => exact walkLevel_withDataPriv ..
  | succ i ih =>
    simp only [walk, walkLevel_withDataPriv]
    rw [funext ih]

theorem translateVa_withDataPriv (va : Word) (t : Access) (p : Priv) :
    translateVa (s.withDataPriv b m) va t p = translateVa s va t p := by
  simp only [translateVa, walk_withDataPriv]
  rfl

theorem applyUpdate_withDataPriv (u : Option (Word × Word)) :
    applyUpdate (s.withDataPriv b m) u = (applyUpdate s u).withDataPriv b m := by
  cases u <;> rfl

theorem fetchedWord_withDataPriv (pa : Word) : fetchedWord (s.withDataPriv b m) pa = fetchedWord s pa := rfl

theorem resolve_withDataPriv (va : Word) (t : Access) (p : Priv) (n : Nat) :
    resolve (s.withDataPriv b m) va t p n =
      (resolve s va t p n).map fun r => (r.1, r.2.withDataPriv b m) := by
  have hb : (s.withDataPriv b m).board = s.board := rfl
  simp only [resolve, translateVa_withDataPriv, applyUpdate_withDataPriv, hb]
  cases translateVa s va t p with
  | error e => rfl
  | ok tr => cases h : physAccessible s.board tr.pa n t <;> simp [h, Except.map]

/-- A fetch raises the same exception, or answers the same word and the same state but for the two fields. -/
theorem fetchWord_withDataPriv (va : Word) :
    fetchWord (s.withDataPriv b m) va = (fetchWord s va).map fun r => (r.1, r.2.withDataPriv b m) := by
  have hp : (s.withDataPriv b m).priv = s.priv := rfl
  simp only [fetchWord, hp, resolve_withDataPriv]
  cases resolve s va .fetch s.priv 4 with
  | error e => rfl
  | ok r => simp only [Except.map, fetchedWord_withDataPriv]

theorem fetchWord_withDataPriv_fst (va : Word) :
    (fetchWord (s.withDataPriv b m) va).map Prod.fst = (fetchWord s va).map Prod.fst := by
  rw [fetchWord_withDataPriv]
  cases fetchWord s va <;> rfl

end

/-! ## The obligation -/

/-- Settles O54: the condition of R140 on satp as it reads, the privilege of R127 on mstatus as it reads, and a fetch
with MPRV and MPP replaced answers what it did. -/
theorem translationIsActiveOnlyBelowMachineMode : Obligations.TranslationIsActiveOnlyBelowMachineMode := by
  intro s va t p
  exact ⟨translated_iff s p, fun h => translateVa_untranslated h va t, dataPriv_eq s,
    fun b m => fetchWord_withDataPriv_fst s b m va⟩

end Sys2Proof.Machine
end

-- ==== Proofs of taking a trap and of the mode (spec/60_exceptions.md R414 to R434, R452) ====
section
/-! PROOFS. What a trap writes in the mode that delegation picks (R414, R430, R431, R434), and the only ways a step
changes the mode (R452). The second rests on three facts: what a step can do (`StepOutcome`), that no instruction but a
return leaves the mode by anything else than a trap (`exec_staysOrTraps`), and that a trap never lowers the mode. -/

namespace Sys2Proof.Machine

/-! ## Delegation and the target mode of a trap (R414, R416, R420) -/

theorem delegated_eq_delegationBit (s : State) (c : Cause) : delegated s c = delegationBit s c := by
  cases c <;> rfl

theorem trapToS_eq_true_iff {s : State} {c : Cause} :
    trapToS s c = true ↔ s.priv ≠ .M ∧ delegationBit s c = true := by
  simp [trapToS, delegated_eq_delegationBit]

theorem trapToS_eq_false_iff {s : State} {c : Cause} :
    trapToS s c = false ↔ s.priv = .M ∨ delegationBit s c = false := by
  rw [← Bool.not_eq_true, trapToS_eq_true_iff]
  simp [or_iff_not_imp_left]

/-! ## The cause word (R431) -/

theorem Cause.word_getLsbD_63 (c : Cause) : c.word.getLsbD 63 = c.isInterrupt := by
  cases c with
  | exc e => cases e <;> decide
  | irq i => cases i <;> decide

theorem Cause.word_low_toNat (c : Cause) : (c.word.extractLsb' 0 63).toNat = c.code := by
  cases c with
  | exc e => cases e <;> decide
  | irq i => cases i <;> decide

/-! ## The two forms of a trap (R430, R434) -/

theorem takeTrap_machine {s : State} {c : Cause} (h : trapToS s c = false) (epc tval : Word) :
    takeTrap s c epc tval =
      { s with
        mcause := c.word, mepc := epcValue epc, mtval := tval, mstatus := s.mstatus.enterM s.priv, priv := .M
        pc := vectorTarget s.board s.mtvec c } := by
  simp [takeTrap, h]

theorem takeTrap_supervisor {s : State} {c : Cause} (h : trapToS s c = true) (epc tval : Word) :
    takeTrap s c epc tval =
      { s with
        scause := c.word, sepc := epcValue epc, stval := tval, mstatus := s.mstatus.enterS s.priv, priv := .S
        pc := vectorTarget s.board s.stvec c } := by
  simp [takeTrap, h]

/-! ## What a trap does to the mode -/

theorem takeTrap_priv_of_delegated {s : State} {c : Cause} (hM : s.priv ≠ .M) (hd : delegationBit s c = true)
    (epc tval : Word) : (takeTrap s c epc tval).priv = .S := by
  simp [trapToS_eq_true_iff.2 ⟨hM, hd⟩]

theorem Priv.level_le_machine (p : Priv) : p.level ≤ Priv.level .M := by
  cases p <;> decide

theorem Priv.level_le_supervisor {p : Priv} (h : p ≠ .M) : p.level ≤ Priv.level .S := by
  cases p with
  | U | S => decide
  | M => exact absurd rfl h

/-- A trap goes upward or sideways: to S mode it goes only from below M mode (R416, R452). -/
theorem level_le_takeTrap_priv (s : State) (c : Cause) (epc tval : Word) :
    s.priv.level ≤ (takeTrap s c epc tval).priv.level := by
  rw [State.takeTrap_priv]
  split
  next hS => exact Priv.level_le_supervisor (trapToS_eq_true_iff.1 hS).1
  next => exact Priv.level_le_machine _

/-! ## What an instruction does to the mode -/

/-- An answer in the mode of `s`, or the trap of an exception taken in `s`. -/
def StaysOrTraps (s : State) (r : Result) : Prop :=
  (∃ t, r = .next t ∧ t.priv = s.priv) ∨ ∃ e epc tval, Traps s r e epc tval

theorem StaysOrTraps.stays {s t : State} (h : t.priv = s.priv) : StaysOrTraps s (.next t) :=
  .inl ⟨t, rfl, h⟩

theorem StaysOrTraps.traps {s : State} {r : Result} {e : Exc} {epc tval : Word} (h : Traps s r e epc tval) :
    StaysOrTraps s r :=
  .inr ⟨e, epc, tval, h⟩

theorem raiseIllegal_staysOrTraps (s : State) (w : InstrWord) : StaysOrTraps s (.next (s.raiseIllegal w)) :=
  .traps rfl

theorem raiseCall_staysOrTraps (s : State) (e : Exc) : StaysOrTraps s (.next (s.raiseCall e)) :=
  .traps rfl

theorem writeAndRetire_staysOrTraps {s s1 : State} (h : s1.priv = s.priv) (rd : Reg) (v : Word) :
    StaysOrTraps s (s1.writeAndRetire rd v) :=
  .stays h

theorem jumpTo_staysOrTraps (s : State) (rd : Reg) (target : Word) : StaysOrTraps s (jumpTo s rd target) := by
  unfold jumpTo
  split
  next => exact .traps rfl
  next => exact .stays rfl

theorem branchTo_staysOrTraps (s : State) (taken : Bool) (off : BitVec 13) :
    StaysOrTraps s (branchTo s taken off) := by
  unfold branchTo
  dsimp only
  split_ifs
  · exact .traps rfl
  · exact .stays rfl
  · exact .stays rfl

/-- The checks of a data access raise an exception, or the access is one of `DataOk`. -/
theorem resolveData_error_or_dataOk (s : State) (va : Word) (t : Access) (w : Width) :
    (∃ e, resolveData s va t w = .error e) ∨ ∃ tr, DataOk s va t w.bytes tr := by
  cases h : resolveData s va t w with
  | error e => exact .inl ⟨e, rfl⟩
  | ok r =>
    obtain ⟨tr, htr, -⟩ := resolveData_cases h
    exact .inr ⟨tr, htr⟩

theorem loadTo_staysOrTraps (s : State) (rd : Reg) (va : Word) (w : Width) (ext : Word → Word) :
    StaysOrTraps s (loadTo s rd va w ext) := by
  obtain ⟨e, he⟩ | ⟨tr, htr⟩ := resolveData_error_or_dataOk s va .load w
  · exact .traps (loadTo_error he)
  · rw [loadTo_ok htr]
    exact writeAndRetire_staysOrTraps (by simp) ..

theorem storeFrom_staysOrTraps (s : State) (va : Word) (w : Width) (v : Word) :
    StaysOrTraps s (storeFrom s va w v) := by
  obtain ⟨e, he⟩ | ⟨tr, htr⟩ := resolveData_error_or_dataOk s va .store w
  · exact .traps (storeFrom_error he)
  · rw [storeFrom_ok htr]
    exact .stays (by simp)

theorem storeConditional_staysOrTraps (s : State) (rd : Reg) (va : Word) (w : Width) (v : Word) :
    StaysOrTraps s (storeConditional s rd va w v) := by
  obtain ⟨e, he⟩ | ⟨tr, htr⟩ := resolveData_error_or_dataOk s va .store w
  · exact .traps (storeConditional_error he)
  · rw [storeConditional_ok htr]
    exact writeAndRetire_staysOrTraps (by simp) ..

theorem amoTo_staysOrTraps (s : State) (rd : Reg) (va : Word) (w : Width) (f ext : Word → Word) :
    StaysOrTraps s (amoTo s rd va w f ext) := by
  obtain ⟨e, he⟩ | ⟨tr, htr⟩ := resolveData_error_or_dataOk s va .store w
  · exact .traps (amoTo_error he)
  · rw [amoTo_ok htr]
    exact writeAndRetire_staysOrTraps (by simp) ..

theorem csrWrite_priv (s : State) (v : Word) (c : Csr) : (csrWrite s v c).priv = s.priv := by
  obtain ⟨-, -, hpriv, -⟩ := csrWrite_frame s v c
  exact hpriv

theorem retireCsr_priv (s : State) (c : Csr) (writes : Bool) : (retireCsr s c writes).priv = s.priv := by
  unfold retireCsr
  split <;> rfl

/-- A write of mstatus reaches MPP and SPP, but no CSR shows the mode itself. -/
theorem csrInstr_staysOrTraps (s : State) (w : InstrWord) (rd : Reg) (a : CsrAddr) (writes : Bool)
    (f : Word → Word) : StaysOrTraps s (csrInstr s w rd a writes f) := by
  cases h : csrCheck s a writes with
  | none =>
    rw [csrInstr_illegal h]
    exact raiseIllegal_staysOrTraps ..
  | some c =>
    rw [csrInstr_legal h]
    refine .stays ?_
    rw [retireCsr_priv, State.setReg_priv]
    split
    next => exact csrWrite_priv ..
    next => rfl

theorem execEcall_staysOrTraps (s : State) : StaysOrTraps s (execEcall s) := by
  unfold execEcall
  cases s.priv with
  | U | S | M => exact raiseCall_staysOrTraps ..

theorem execSfenceVma_staysOrTraps (rs1 rs2 : Reg) (s : State) : StaysOrTraps s (execSfenceVma rs1 rs2 s) := by
  unfold execSfenceVma
  cases s.priv with
  | U => exact raiseIllegal_staysOrTraps ..
  | M => exact .stays rfl
  | S =>
    dsimp only
    split
    next => exact raiseIllegal_staysOrTraps ..
    next => exact .stays rfl

theorem execWfi_staysOrTraps (s : State) : StaysOrTraps s (execWfi s) := by
  unfold execWfi
  split
  next => exact raiseIllegal_staysOrTraps ..
  next => exact .stays rfl

/-- Every instruction but the two returns keeps the mode or traps. The cases stand by the shape of the meaning. -/
theorem exec_staysOrTraps {i : Instr} (hmret : i ≠ .mret) (hsret : i ≠ .sret) (s : State) :
    StaysOrTraps s (exec i s) := by
  cases i
  case lui | auipc | addi | slti | sltiu | andi | ori | xori | slli | srli | srai | add | sub | slt | sltu | and
      | or | xor | sll | srl | sra | addiw | slliw | srliw | sraiw | addw | subw | sllw | srlw | sraw =>
    exact writeAndRetire_staysOrTraps rfl ..
  case jal | jalr => exact jumpTo_staysOrTraps ..
  case beq | bne | blt | bltu | bge | bgeu => exact branchTo_staysOrTraps ..
  case lb | lbu | lh | lhu | lw | lwu | ld | lrW | lrD => exact loadTo_staysOrTraps ..
  case sb | sh | sw | sd => exact storeFrom_staysOrTraps ..
  case scW | scD => exact storeConditional_staysOrTraps ..
  case amoswapW | amoswapD | amoaddW | amoaddD | amoandW | amoandD | amoorW | amoorD | amoxorW | amoxorD | amomaxW
      | amomaxD | amominW | amominD | amomaxuW | amomaxuD | amominuW | amominuD =>
    exact amoTo_staysOrTraps ..
  case csrrw | csrrs | csrrc | csrrwi | csrrsi | csrrci => rw [exec]; exact csrInstr_staysOrTraps ..
  case fence | fenceI => exact .stays rfl
  case ecall => exact execEcall_staysOrTraps ..
  case ebreak => exact raiseCall_staysOrTraps ..
  case sfenceVma => exact execSfenceVma_staysOrTraps ..
  case wfi => exact execWfi_staysOrTraps ..
  case mret => exact absurd rfl hmret
  case sret => exact absurd rfl hsret

/-! ## The returns (R379, R380, R440) -/

theorem execMret_cases (s : State) :
    (s.priv = .M ∧ execMret s = .next (returnM s)) ∨ execMret s = .next (s.raiseIllegal (encode .mret)) := by
  unfold execMret
  cases s.priv with
  | M => exact .inl ⟨rfl, rfl⟩
  | S | U => exact .inr rfl

theorem execSret_cases (s : State) :
    (s.priv ≠ .U ∧ execSret s = .next (returnS s)) ∨ execSret s = .next (s.raiseIllegal (encode .sret)) := by
  unfold execSret
  cases s.priv with
  | U => exact .inr rfl
  | S =>
    dsimp only
    split
    next => exact .inr rfl
    next => exact .inl ⟨by decide, rfl⟩
  | M =>
    dsimp only
    split
    next => exact .inl ⟨by decide, rfl⟩
    next => exact .inr rfl

/-- MRET is legal in M mode only, so whatever MPP holds it does not go upward. -/
theorem level_returnM_le {s : State} (h : s.priv = .M) : (returnM s).priv.level ≤ s.priv.level :=
  h ▸ Priv.level_le_machine _

/-- SRET goes to S mode at most, and is illegal in U mode. -/
theorem level_returnS_le {s : State} (h : s.priv ≠ .U) : (returnS s).priv.level ≤ s.priv.level := by
  rw [State.returnS_priv]
  cases hp : s.priv with
  | U => exact absurd hp h
  | S | M => cases s.mstatus.spp <;> decide

/-- What an instruction that answers a next state does to the mode: it keeps it, traps, or is a legal return. -/
theorem exec_mode {i : Instr} {s t : State} (h : exec i s = .next t) :
    t.priv = s.priv ∨ (∃ e epc tval, t = takeTrap s (.exc e) epc tval) ∨
    (i = .mret ∧ s.priv = .M ∧ t = returnM s) ∨ (i = .sret ∧ s.priv ≠ .U ∧ t = returnS s) := by
  by_cases hmret : i = .mret
  · subst hmret
    obtain ⟨hM, ht⟩ | ht := execMret_cases s
    · exact .inr (.inr (.inl ⟨rfl, hM, Host.Outcome.next.inj (h.symm.trans ht)⟩))
    · exact .inr (.inl ⟨_, _, _, Host.Outcome.next.inj (h.symm.trans ht)⟩)
  by_cases hsret : i = .sret
  · subst hsret
    obtain ⟨hU, ht⟩ | ht := execSret_cases s
    · exact .inr (.inr (.inr ⟨rfl, hU, Host.Outcome.next.inj (h.symm.trans ht)⟩))
    · exact .inr (.inl ⟨_, _, _, Host.Outcome.next.inj (h.symm.trans ht)⟩)
  obtain ⟨u, hu, hpriv⟩ | ⟨e, epc, tval, ht⟩ := exec_staysOrTraps hmret hsret s
  · obtain rfl : t = u := Host.Outcome.next.inj (h.symm.trans hu)
    exact .inl hpriv
  · exact .inr (.inl ⟨e, epc, tval, Host.Outcome.next.inj (h.symm.trans ht)⟩)

/-! ## What a step does (R11) -/

/-- The next states of a step: after an interrupt, after a fetch that raises, after a word of no instruction, and after
an instruction; in each, time passes. -/
inductive StepOutcome (s : State) : State → Prop where
  | interrupt {i : Irq} (hi : interruptTaken s = some i) :
      StepOutcome s (takeTrap s (.irq i) s.pc 0#64).elapse
  | fetchFault {e : Exc} (hi : interruptTaken s = none) (hf : fetchWord s s.pc = .error e) :
      StepOutcome s (s.raise e s.pc).elapse
  | noInstruction {w : InstrWord} {u : State} {d : DecodeError} (hi : interruptTaken s = none)
      (hf : fetchWord s s.pc = .ok (w, u)) (hd : decodeWord w = .error d) : StepOutcome s (u.raiseIllegal w).elapse
  | executed {w : InstrWord} {u t : State} {i : Instr} (hi : interruptTaken s = none)
      (hf : fetchWord s s.pc = .ok (w, u)) (hd : decodeWord w = .ok i) (hx : exec i u = .next t) :
      StepOutcome s t.elapse

theorem elapseResult_eq_next {r : Result} {t : State} (h : elapseResult r = .next t) :
    ∃ u, r = .next u ∧ u.elapse = t := by
  cases r with
  | next u => exact ⟨u, rfl, Host.Outcome.next.inj h⟩
  | fault e => cases e
  | refused e => cases h

theorem step_outcome {s t : State} (h : step s = .next t) : StepOutcome s t := by
  unfold step at h
  split at h
  next i hi => exact Host.Outcome.next.inj h ▸ .interrupt hi
  next hi =>
    split at h
    next e hf => exact Host.Outcome.next.inj h ▸ .fetchFault hi hf
    next w u hf =>
      split at h
      next d hd => exact Host.Outcome.next.inj h ▸ .noInstruction hi hf hd
      next i hd =>
        obtain ⟨t, hx, rfl⟩ := elapseResult_eq_next h
        exact .executed hi hf hd hx

/-- A fetch changes at most the A bit of a page-table entry, so not the mode (R124). -/
theorem fetchWord_priv {s u : State} {va : Word} {w : InstrWord} (h : fetchWord s va = .ok (w, u)) :
    u.priv = s.priv := by
  unfold fetchWord at h
  split at h
  next => cases h
  next pa s1 hr =>
    obtain ⟨tr, -, -, -, rfl⟩ := resolve_cases hr
    obtain ⟨-, rfl⟩ := Prod.mk.inj (Except.ok.inj h)
    exact State.applyUpdate_priv ..

/-! ## The obligations -/

/-- A trap taken where the mode is that of `s` satisfies the upward clause of R452. -/
theorem trap_goes_upward {s u : State} (hu : u.priv = s.priv) (c : Cause) (epc tval : Word) :
    s.priv.level ≤ (takeTrap u c epc tval).elapse.priv.level ∧
    ∃ u' c' epc' tval', u'.priv = s.priv ∧ (takeTrap u c epc tval).elapse = (takeTrap u' c' epc' tval').elapse :=
  ⟨hu ▸ level_le_takeTrap_priv u c epc tval, u, c, epc, tval, hu, rfl⟩

theorem ecall_delegated_stays_supervisor {s t : State} (hS : s.priv = .S)
    (hd : (csrRead s .medeleg).getLsbD 9 = true) (h : exec .ecall s = .next t) : t.priv = .S := by
  have ht : exec .ecall s = .next (s.raiseCall .ecallS) := by simp [exec, execEcall, hS]
  rw [← Host.Outcome.next.inj (ht.symm.trans h)]
  exact takeTrap_priv_of_delegated (c := .exc .ecallS) (by simp [hS]) hd _ _

/-- Settles O51, by what a step can do: its traps are taken in the mode of `s` and go upward, and an instruction that
neither traps nor keeps the mode is a legal return, which goes downward. -/
theorem onlyTrapsAndReturnsChangeTheMode : Obligations.OnlyTrapsAndReturnsChangeTheMode := by
  refine ⟨fun s t h => ?_, fun s t => ecall_delegated_stays_supervisor, fun b => rfl⟩
  cases step_outcome h with
  | interrupt => exact .inr (.inl (trap_goes_upward rfl ..))
  | fetchFault => exact .inr (.inl (trap_goes_upward rfl ..))
  | noInstruction hi hf => exact .inr (.inl (trap_goes_upward (fetchWord_priv hf) ..))
  | @executed w u t i hi hf hd hx =>
    have hu := fetchWord_priv hf
    obtain hsame | ⟨e, epc, tval, rfl⟩ | ⟨rfl, hM, rfl⟩ | ⟨rfl, hU, rfl⟩ := exec_mode hx
    · exact .inl (hsame.trans hu)
    · exact .inr (.inl (trap_goes_upward hu ..))
    · exact .inr (.inr ⟨hu ▸ level_returnM_le hM, u, w, hf, .inl ⟨hd, rfl⟩⟩)
    · exact .inr (.inr ⟨hu ▸ level_returnS_le hU, u, w, hf, .inr ⟨hd, rfl⟩⟩)

/-- Settles O49: delegation decides the target mode, and there `takeTrap` writes six fields and no other. -/
theorem takingATrap : Obligations.TakingATrap := by
  intro s c epc tval
  have hframe := takeTrap_frame s c epc tval
  refine ⟨fun hto => ?_, fun hM hd => ?_⟩
  · rw [takeTrap_machine (trapToS_eq_false_iff.2 hto)] at hframe ⊢
    obtain ⟨hregs, hplatform, hhidden, hcontrol, hmem, hminstret⟩ := hframe
    exact ⟨c.word_getLsbD_63, c.word_low_toNat, rfl, rfl, rfl, rfl, rfl, rfl, rfl, rfl, hminstret, hregs, hcontrol,
      hplatform, hhidden, fun a => congrArg (Memory.byteAt · a) hmem⟩
  · rw [takeTrap_supervisor (trapToS_eq_true_iff.2 ⟨hM, hd⟩)] at hframe ⊢
    obtain ⟨hregs, hplatform, hhidden, hcontrol, hmem, hminstret⟩ := hframe
    exact ⟨c.word_getLsbD_63, c.word_low_toNat, rfl, rfl, rfl, rfl, rfl, rfl, rfl, rfl, hminstret, hregs, hcontrol,
      hplatform, hhidden, fun a => congrArg (Memory.byteAt · a) hmem⟩

end Sys2Proof.Machine
end

-- ==== Proofs of decoding and encoding (spec/30_encoding.md) ====
section
/-! PROOFS. The decoder and the encoder are inverse to each other and follow the opcode table (R190 to R201). Three
facts carry the proofs: each format's encoder puts the fields of a word back together (`encR_fields` and the like), a
row's mask fixes the fields under it (`extractLsb'_of_row`), and the word of an instruction is one of its row. -/

namespace Sys2Proof

/-! ## Words from their fields -/

theorem encR_fields {w : InstrWord} {f7 : BitVec 7} {f3 : BitVec 3} {op : BitVec 7} (h7 : fFunct7 w = f7)
    (h3 : fFunct3 w = f3) (hop : fOpcode w = op) : encR f7 (fRs2 w) (fRs1 w) f3 (fRd w) op = w := by
  subst h7 h3 hop
  refine BitVec.eq_of_getLsbD_eq fun i hi => ?_
  simp only [encR, fFunct7, fRs2, fRs1, fFunct3, fRd, fOpcode]
  repeat rw [BitVec.getLsbD_append]
  simp only [BitVec.getLsbD_extractLsb']
  interval_cases i <;> simp

theorem encI_fields {w : InstrWord} {f3 : BitVec 3} {op : BitVec 7} (h3 : fFunct3 w = f3) (hop : fOpcode w = op) :
    encI (fImmI w) (fRs1 w) f3 (fRd w) op = w := by
  subst h3 hop
  refine BitVec.eq_of_getLsbD_eq fun i hi => ?_
  simp only [encI, fImmI, fRs1, fFunct3, fRd, fOpcode]
  repeat rw [BitVec.getLsbD_append]
  simp only [BitVec.getLsbD_extractLsb']
  interval_cases i <;> simp

theorem encS_fields {w : InstrWord} {f3 : BitVec 3} {op : BitVec 7} (h3 : fFunct3 w = f3) (hop : fOpcode w = op) :
    encS (fImmS w) (fRs2 w) (fRs1 w) f3 op = w := by
  subst h3 hop
  refine BitVec.eq_of_getLsbD_eq fun i hi => ?_
  simp only [encS, fImmS, fRs2, fRs1, fFunct3, fOpcode]
  repeat rw [BitVec.getLsbD_append]
  simp only [BitVec.getLsbD_extractLsb', BitVec.getLsbD_append]
  interval_cases i <;> simp

theorem encB_fields {w : InstrWord} {f3 : BitVec 3} {op : BitVec 7} (h3 : fFunct3 w = f3) (hop : fOpcode w = op) :
    encB (fImmB w) (fRs2 w) (fRs1 w) f3 op = w := by
  subst h3 hop
  refine BitVec.eq_of_getLsbD_eq fun i hi => ?_
  simp only [encB, fImmB, fRs2, fRs1, fFunct3, fOpcode]
  repeat rw [BitVec.getLsbD_append]
  simp only [BitVec.getLsbD_extractLsb', BitVec.getLsbD_append]
  interval_cases i <;> simp

theorem encU_fields {w : InstrWord} {op : BitVec 7} (hop : fOpcode w = op) : encU (fImmU w) (fRd w) op = w := by
  subst hop
  refine BitVec.eq_of_getLsbD_eq fun i hi => ?_
  simp only [encU, fImmU, fRd, fOpcode]
  repeat rw [BitVec.getLsbD_append]
  simp only [BitVec.getLsbD_extractLsb']
  interval_cases i <;> simp

theorem encJ_fields {w : InstrWord} {op : BitVec 7} (hop : fOpcode w = op) : encJ (fImmJ w) (fRd w) op = w := by
  subst hop
  refine BitVec.eq_of_getLsbD_eq fun i hi => ?_
  simp only [encJ, fImmJ, fRd, fOpcode]
  repeat rw [BitVec.getLsbD_append]
  simp only [BitVec.getLsbD_extractLsb', BitVec.getLsbD_append]
  interval_cases i <;> simp

theorem encSh6_fields {w : InstrWord} {f6 : BitVec 6} {f3 : BitVec 3} {op : BitVec 7} (h6 : fFunct6 w = f6)
    (h3 : fFunct3 w = f3) (hop : fOpcode w = op) : encSh6 f6 (fShamt6 w) (fRs1 w) f3 (fRd w) op = w := by
  subst h6 h3 hop
  refine BitVec.eq_of_getLsbD_eq fun i hi => ?_
  simp only [encSh6, fFunct6, fShamt6, fRs1, fFunct3, fRd, fOpcode]
  repeat rw [BitVec.getLsbD_append]
  simp only [BitVec.getLsbD_extractLsb']
  interval_cases i <;> simp

theorem encA_fields {w : InstrWord} {f5 : BitVec 5} {f3 : BitVec 3} (h5 : fFunct5 w = f5) (h3 : fFunct3 w = f3)
    (hop : fOpcode w = 0x2F#7) : encA f5 (fAq w) (fRl w) (fRs2 w) (fRs1 w) f3 (fRd w) = w := by
  subst h5 h3
  refine BitVec.eq_of_getLsbD_eq fun i hi => ?_
  rw [encA, ← hop]
  simp only [fFunct5, fAq, fRl, fRs2, fRs1, fFunct3, fRd, fOpcode]
  repeat rw [BitVec.getLsbD_append]
  simp only [BitVec.getLsbD_extractLsb']
  interval_cases i <;> simp

theorem encF_fields {w : InstrWord} (h3 : fFunct3 w = 0x0#3) (hop : fOpcode w = 0x0F#7) :
    encF (fFm w) (fPred w) (fSucc w) (fRs1 w) (fRd w) = w := by
  refine BitVec.eq_of_getLsbD_eq fun i hi => ?_
  rw [encF, ← hop, ← h3]
  simp only [fFm, fPred, fSucc, fRs1, fFunct3, fRd, fOpcode]
  repeat rw [BitVec.getLsbD_append]
  simp only [BitVec.getLsbD_extractLsb']
  interval_cases i <;> simp

theorem evenOffset_fImmB (w : InstrWord) : evenOffset (fImmB w) = true := by
  rw [evenOffset, fImmB, BitVec.getLsbD_append]
  simp

theorem evenOffset_fImmJ (w : InstrWord) : evenOffset (fImmJ w) = true := by
  rw [evenOffset, fImmJ, BitVec.getLsbD_append]
  simp

/-- The words of SFENCE.VMA are none of the five fixed words beside them: funct7 tells them apart (R200). -/
theorem decodePriv_sfenceVma {w : InstrWord} (h7 : fFunct7 w = 0x09#7) (hrd : fRd w = 0x00#5) :
    decodePriv w = .ok (.sfenceVma (fRs1 w) (fRs2 w)) := by
  have hne (m : InstrWord) (hm : fFunct7 m ≠ 0x09#7) : w ≠ m := fun h => hm (h ▸ h7)
  simp [decodePriv, h7, hrd, hne 0x00000073#32 (by decide), hne 0x00100073#32 (by decide),
    hne 0x10200073#32 (by decide), hne 0x30200073#32 (by decide), hne 0x10500073#32 (by decide)]

/-! ## Decoding what was encoded -/

theorem even_of_wellFormed {n : Nat} {off : BitVec n} (h : evenOffset off = true) : off.getLsbD 0 = false := by
  simpa [evenOffset] using h

/-- Settles O1: per major opcode, each format gives back the function codes that select the instruction, and its
operands; the offsets of the B and J formats because they are even. -/
theorem decodeOfEncodedInstruction : Obligations.DecodeOfEncodedInstruction := by
  intro i hwf
  cases i
  case lui | auipc => simp [decodeWord, encode]
  case jal rd off => simp [decodeWord, encode, fImmJ_encJ (even_of_wellFormed hwf)]
  case jalr => simp [decodeWord, encode]
  case beq rs1 rs2 off | bne rs1 rs2 off | blt rs1 rs2 off | bltu rs1 rs2 off | bge rs1 rs2 off | bgeu rs1 rs2 off =>
    simp [decodeWord, decodeBranch, encode, fImmB_encB (even_of_wellFormed hwf)]
  case lb | lbu | lh | lhu | lw | lwu | ld => simp [decodeWord, decodeLoad, encode]
  case sb | sh | sw | sd => simp [decodeWord, decodeStore, encode]
  case addi | slti | sltiu | andi | ori | xori | slli | srli | srai => simp [decodeWord, decodeOpImm, encode]
  case add | sub | slt | sltu | and | or | xor | sll | srl | sra => simp [decodeWord, decodeOp, encode]
  case addiw | slliw | srliw | sraiw => simp [decodeWord, decodeOpImm32, encode]
  case addw | subw | sllw | srlw | sraw => simp [decodeWord, decodeOp32, encode]
  case fence | fenceI => simp [decodeWord, decodeMiscMem, encode]
  case amoswapW | amoaddW | amoandW | amoorW | amoxorW | amomaxW | amominW | amomaxuW | amominuW | lrW | scW =>
    simp [decodeWord, decodeAmo, decodeAmoW, encode]
  case amoswapD | amoaddD | amoandD | amoorD | amoxorD | amomaxD | amominD | amomaxuD | amominuD | lrD | scD =>
    simp [decodeWord, decodeAmo, decodeAmoD, encode]
  case csrrw | csrrs | csrrc | csrrwi | csrrsi | csrrci => simp [decodeWord, decodeSystem, encode]
  case sfenceVma rs1 rs2 =>
    simp [decodeWord, decodeSystem, encode, decodePriv_sfenceVma (w := encR 0x09#7 rs2 rs1 0x0#3 0x00#5 0x73#7)]
  case ecall | ebreak | mret | sret | wfi => rfl

/-! ## Encoding what was decoded -/

/-- `i` is well formed and its word is `w`. -/
def IsWordOf (w : InstrWord) (i : Instr) : Prop := encode i = w ∧ WellFormed i

section
variable {w : InstrWord} {i : Instr}

/-- One link of a chain of opcodes or function codes. -/
theorem isWordOf_of_ite {c : Prop} [Decidable c] {x y : Except DecodeError Instr} (h : (if c then x else y) = .ok i)
    (hx : c → x = .ok i → IsWordOf w i) (hy : y = .ok i → IsWordOf w i) : IsWordOf w i := by
  split at h
  next hc => exact hx hc h
  next => exact hy h

theorem isWordOf_of_ite_ok {c : Prop} [Decidable c] {j : Instr} {y : Except DecodeError Instr}
    (h : (if c then .ok j else y) = .ok i) (hj : c → IsWordOf w j) (hy : y = .ok i → IsWordOf w i) : IsWordOf w i :=
  isWordOf_of_ite h (fun hc h => Except.ok.inj h ▸ hj hc) hy

theorem decodeBranch_isWordOf (hop : fOpcode w = 0x63#7) (h : decodeBranch w = .ok i) : IsWordOf w i := by
  unfold decodeBranch at h
  split_ifs at h <;> obtain rfl := Except.ok.inj h <;>
    exact ⟨encB_fields (by assumption) hop, evenOffset_fImmB w⟩

theorem decodeLoad_isWordOf (hop : fOpcode w = 0x3#7) (h : decodeLoad w = .ok i) : IsWordOf w i := by
  unfold decodeLoad at h
  split_ifs at h <;> obtain rfl := Except.ok.inj h <;> exact ⟨encI_fields (by assumption) hop, rfl⟩

theorem decodeStore_isWordOf (hop : fOpcode w = 0x23#7) (h : decodeStore w = .ok i) : IsWordOf w i := by
  unfold decodeStore at h
  split_ifs at h <;> obtain rfl := Except.ok.inj h <;> exact ⟨encS_fields (by assumption) hop, rfl⟩

/-- The last case of a chain that has excluded the other seven values of funct3. -/
theorem funct3_exhausted : ∀ f : BitVec 3, f = 0x0#3 ∨ f = 0x1#3 ∨ f = 0x2#3 ∨ f = 0x3#3 ∨ f = 0x4#3 ∨ f = 0x5#3 ∨
    f = 0x6#3 ∨ f = 0x7#3 := by
  decide

theorem decodeOpImm_isWordOf (hop : fOpcode w = 0x13#7) (h : decodeOpImm w = .ok i) : IsWordOf w i := by
  have hall := funct3_exhausted (fFunct3 w)
  unfold decodeOpImm at h
  split_ifs at h with h0 h2 h3 h4 h6 h7 h1 hsll hsrl hsra
  case pos | pos | pos | pos | pos | pos =>
    obtain rfl := Except.ok.inj h
    exact ⟨encI_fields (by assumption) hop, rfl⟩
  · obtain rfl := Except.ok.inj h
    exact ⟨encSh6_fields hsll h1 hop, rfl⟩
  · obtain rfl := Except.ok.inj h
    exact ⟨encSh6_fields hsrl (by simpa only [h0, h1, h2, h3, h4, h6, h7, false_or, or_false] using hall) hop, rfl⟩
  · obtain rfl := Except.ok.inj h
    exact ⟨encSh6_fields hsra (by simpa only [h0, h1, h2, h3, h4, h6, h7, false_or, or_false] using hall) hop, rfl⟩

theorem decodeOpImm32_isWordOf (hop : fOpcode w = 0x1B#7) (h : decodeOpImm32 w = .ok i) : IsWordOf w i := by
  unfold decodeOpImm32 at h
  split_ifs at h <;> obtain rfl := Except.ok.inj h
  · exact ⟨encI_fields (by assumption) hop, rfl⟩
  all_goals exact ⟨encR_fields (by assumption) (by assumption) hop, rfl⟩

theorem decodeOp_isWordOf (hop : fOpcode w = 0x33#7) (h : decodeOp w = .ok i) : IsWordOf w i := by
  have hall := funct3_exhausted (fFunct3 w)
  unfold decodeOp at h
  split_ifs at h with h7 h0 h1 h2 h3 h4 h5 h6 <;> obtain rfl := Except.ok.inj h
  case neg =>
    exact ⟨encR_fields h7 (by simpa only [h0, h1, h2, h3, h4, h5, h6, false_or, or_false] using hall) hop, rfl⟩
  all_goals exact ⟨encR_fields (by assumption) (by assumption) hop, rfl⟩

theorem decodeOp32_isWordOf (hop : fOpcode w = 0x3B#7) (h : decodeOp32 w = .ok i) : IsWordOf w i := by
  unfold decodeOp32 at h
  split_ifs at h <;> obtain rfl := Except.ok.inj h <;>
    exact ⟨encR_fields (by assumption) (by assumption) hop, rfl⟩

theorem decodeMiscMem_isWordOf (hop : fOpcode w = 0xF#7) (h : decodeMiscMem w = .ok i) : IsWordOf w i := by
  unfold decodeMiscMem at h
  split_ifs at h with h0 h1 <;> obtain rfl := Except.ok.inj h
  · exact ⟨encF_fields h0 hop, rfl⟩
  · exact ⟨encI_fields h1 hop, rfl⟩

theorem decodeAmoW_isWordOf (hop : fOpcode w = 0x2F#7) (h3 : fFunct3 w = 0x2#3) (h : decodeAmoW w = .ok i) :
    IsWordOf w i := by
  unfold decodeAmoW at h
  refine isWordOf_of_ite h (fun h5 h => isWordOf_of_ite_ok h
    (fun hrs2 => ⟨by rw [encode, ← hrs2]; exact encA_fields h5 h3 hop, rfl⟩) nofun) ?_
  clear h; intro h
  iterate 10 (refine isWordOf_of_ite_ok h (fun h5 => ⟨encA_fields h5 h3 hop, rfl⟩) ?_; clear h; intro h)
  cases h

theorem decodeAmoD_isWordOf (hop : fOpcode w = 0x2F#7) (h3 : fFunct3 w = 0x3#3) (h : decodeAmoD w = .ok i) :
    IsWordOf w i := by
  unfold decodeAmoD at h
  refine isWordOf_of_ite h (fun h5 h => isWordOf_of_ite_ok h
    (fun hrs2 => ⟨by rw [encode, ← hrs2]; exact encA_fields h5 h3 hop, rfl⟩) nofun) ?_
  clear h; intro h
  iterate 10 (refine isWordOf_of_ite_ok h (fun h5 => ⟨encA_fields h5 h3 hop, rfl⟩) ?_; clear h; intro h)
  cases h

theorem decodeAmo_isWordOf (hop : fOpcode w = 0x2F#7) (h : decodeAmo w = .ok i) : IsWordOf w i := by
  unfold decodeAmo at h
  split_ifs at h with h2 h3
  · exact decodeAmoW_isWordOf hop h2 h
  · exact decodeAmoD_isWordOf hop h3 h

theorem decodePriv_isWordOf (hop : fOpcode w = 0x73#7) (h3 : fFunct3 w = 0x0#3) (h : decodePriv w = .ok i) :
    IsWordOf w i := by
  unfold decodePriv at h
  iterate 5 (refine isWordOf_of_ite_ok h (fun hw => ⟨hw.symm, rfl⟩) ?_; clear h; intro h)
  exact isWordOf_of_ite h (fun h7 h => isWordOf_of_ite_ok h
    (fun hrd => ⟨by rw [encode, ← hrd]; exact encR_fields h7 h3 hop, rfl⟩) nofun) nofun

theorem decodeSystem_isWordOf (hop : fOpcode w = 0x73#7) (h : decodeSystem w = .ok i) : IsWordOf w i := by
  unfold decodeSystem at h
  split_ifs at h with h0
  · exact decodePriv_isWordOf hop h0 h
  all_goals obtain rfl := Except.ok.inj h; exact ⟨encI_fields (by assumption) hop, rfl⟩

/-- Per major opcode, the fields that selected the instruction and its operands are all of the word. -/
theorem decodeWord_isWordOf (h : decodeWord w = .ok i) : IsWordOf w i := by
  unfold decodeWord at h
  refine isWordOf_of_ite_ok h (fun lui => ⟨encU_fields lui, rfl⟩) fun h => ?_
  refine isWordOf_of_ite_ok h (fun auipc => ⟨encU_fields auipc, rfl⟩) fun h => ?_
  refine isWordOf_of_ite_ok h (fun jal => ⟨encJ_fields jal, evenOffset_fImmJ w⟩) fun h => ?_
  refine isWordOf_of_ite h (fun jalr h => isWordOf_of_ite_ok h (fun h3 => ⟨encI_fields h3 jalr, rfl⟩) nofun)
    fun h => ?_
  refine isWordOf_of_ite h decodeBranch_isWordOf fun h => ?_
  refine isWordOf_of_ite h decodeLoad_isWordOf fun h => ?_
  refine isWordOf_of_ite h decodeStore_isWordOf fun h => ?_
  refine isWordOf_of_ite h decodeOpImm_isWordOf fun h => ?_
  refine isWordOf_of_ite h decodeOp_isWordOf fun h => ?_
  refine isWordOf_of_ite h decodeOpImm32_isWordOf fun h => ?_
  refine isWordOf_of_ite h decodeOp32_isWordOf fun h => ?_
  refine isWordOf_of_ite h decodeMiscMem_isWordOf fun h => ?_
  refine isWordOf_of_ite h decodeAmo_isWordOf fun h => ?_
  exact isWordOf_of_ite h decodeSystem_isWordOf nofun

end

/-- Settles O2, by major opcode. -/
theorem encodeOfDecodedWord : Obligations.EncodeOfDecodedWord :=
  fun _ _ => decodeWord_isWordOf

/-! ## The opcode table (R201) -/

/-- The word of an instruction is one of its row. -/
theorem rowMatches_encode (i : Instr) : i.rowMatches (encode i) := by
  cases i
  case lui | auipc => exact (Laws.encU_row ..).trans rfl
  case jal => exact (Laws.encJ_row ..).trans rfl
  case beq | bne | blt | bltu | bge | bgeu => exact (Laws.encB_row ..).trans rfl
  case sb | sh | sw | sd => exact (Laws.encS_row ..).trans rfl
  case slli | srli | srai => exact (Laws.encSh6_row ..).trans rfl
  case addi | slti | sltiu | andi | ori | xori | jalr | lb | lbu | lh | lhu | lw | lwu | ld | addiw | fenceI | csrrw
      | csrrs | csrrc | csrrwi | csrrsi | csrrci =>
    exact (Laws.encI_row ..).trans rfl
  case add | sub | slt | sltu | and | or | xor | sll | srl | sra | slliw | srliw | sraiw | addw | subw | sllw | srlw
      | sraw =>
    exact (Laws.encR_row ..).trans rfl
  case fence => exact (Laws.encF_row ..).trans rfl
  case amoswapW | amoswapD | amoaddW | amoaddD | amoandW | amoandD | amoorW | amoorD | amoxorW | amoxorD | amomaxW
      | amomaxD | amominW | amominD | amomaxuW | amomaxuD | amominuW | amominuD | scW | scD =>
    exact (Laws.encA_row ..).trans rfl
  case lrW | lrD => exact (Laws.encA_lr_row ..).trans rfl
  case sfenceVma => exact (Laws.encR_sfence_row ..).trans rfl
  case ecall | ebreak | mret | sret | wfi => rfl

/-- A word of a row holds what the word of an instruction of the row holds in each field that the mask covers whole. -/
theorem field_of_row {w : InstrWord} {i : Instr} (h : i.rowMatches w) {k n : Nat}
    (hcover : i.rowMask.extractLsb' k n = BitVec.allOnes n) :
    w.extractLsb' k n = (encode i).extractLsb' k n := by
  have hsame : w &&& i.rowMask = encode i &&& i.rowMask := h.trans (rowMatches_encode i).symm
  have hfield := congrArg (BitVec.extractLsb' k n) hsame
  simpa only [BitVec.extractLsb'_and, hcover, BitVec.and_allOnes] using hfield

/-- `w` decodes to an instruction of the row of `i`. -/
def DecodesInRow (w : InstrWord) (i : Instr) : Prop := ∃ j, decodeWord w = .ok j ∧ j.sameRow i

theorem IsWordOf.decodesInRow {w : InstrWord} {i j : Instr} (h : IsWordOf w j) (hrow : j.sameRow i) :
    DecodesInRow w i := by
  obtain ⟨rfl, hwf⟩ := h
  exact ⟨j, decodeOfEncodedInstruction j hwf, hrow⟩

/-! One lemma per format: the mask covers the function codes, so the word is that of the same instruction with the
operands of the word. The constructor `c` stands for every instruction of the format. -/

section
variable {w : InstrWord} {f7 : BitVec 7} {f6 : BitVec 6} {f5 : BitVec 5} {f3 : BitVec 3} {op : BitVec 7}
  {m : InstrWord}

theorem decodesInRow_encR {c : Reg → Reg → Reg → Instr}
    (rd rs1 rs2 : Reg) (h : (c rd rs1 rs2).rowMatches w)
    (hc : ∀ rd rs1 rs2, encode (c rd rs1 rs2) = encR f7 rs2 rs1 f3 rd op ∧ WellFormed (c rd rs1 rs2) ∧
      (c rd rs1 rs2).rowMask = 0xfe00707f#32 ∧ (c rd rs1 rs2).rowMatch = m) : DecodesInRow w (c rd rs1 rs2) := by
  obtain ⟨henc, -, hmask, hmatch⟩ := hc rd rs1 rs2
  have hop : fOpcode w = op := (field_of_row h (by rw [hmask]; decide)).trans (by rw [henc]; exact fOpcode_encR ..)
  have h3 : fFunct3 w = f3 := (field_of_row h (by rw [hmask]; decide)).trans (by rw [henc]; exact fFunct3_encR ..)
  have h7 : fFunct7 w = f7 := (field_of_row h (by rw [hmask]; decide)).trans (by rw [henc]; exact fFunct7_encR ..)
  obtain ⟨henc', hwf, hmask', hmatch'⟩ := hc (fRd w) (fRs1 w) (fRs2 w)
  exact IsWordOf.decodesInRow ⟨henc'.trans (encR_fields h7 h3 hop), hwf⟩
    ⟨hmask'.trans hmask.symm, hmatch'.trans hmatch.symm⟩

theorem decodesInRow_encI {c : Reg → Reg → BitVec 12 → Instr}
    (rd rs1 : Reg) (imm : BitVec 12) (h : (c rd rs1 imm).rowMatches w)
    (hc : ∀ rd rs1 imm, encode (c rd rs1 imm) = encI imm rs1 f3 rd op ∧ WellFormed (c rd rs1 imm) ∧
      (c rd rs1 imm).rowMask = 0x0000707f#32 ∧ (c rd rs1 imm).rowMatch = m) : DecodesInRow w (c rd rs1 imm) := by
  obtain ⟨henc, -, hmask, hmatch⟩ := hc rd rs1 imm
  have hop : fOpcode w = op := (field_of_row h (by rw [hmask]; decide)).trans (by rw [henc]; exact fOpcode_encI ..)
  have h3 : fFunct3 w = f3 := (field_of_row h (by rw [hmask]; decide)).trans (by rw [henc]; exact fFunct3_encI ..)
  obtain ⟨henc', hwf, hmask', hmatch'⟩ := hc (fRd w) (fRs1 w) (fImmI w)
  exact IsWordOf.decodesInRow ⟨henc'.trans (encI_fields h3 hop), hwf⟩
    ⟨hmask'.trans hmask.symm, hmatch'.trans hmatch.symm⟩

theorem decodesInRow_encS {c : Reg → Reg → BitVec 12 → Instr}
    (rs1 rs2 : Reg) (imm : BitVec 12) (h : (c rs1 rs2 imm).rowMatches w)
    (hc : ∀ rs1 rs2 imm, encode (c rs1 rs2 imm) = encS imm rs2 rs1 f3 op ∧ WellFormed (c rs1 rs2 imm) ∧
      (c rs1 rs2 imm).rowMask = 0x0000707f#32 ∧ (c rs1 rs2 imm).rowMatch = m) : DecodesInRow w (c rs1 rs2 imm) := by
  obtain ⟨henc, -, hmask, hmatch⟩ := hc rs1 rs2 imm
  have hop : fOpcode w = op := (field_of_row h (by rw [hmask]; decide)).trans (by rw [henc]; exact fOpcode_encS ..)
  have h3 : fFunct3 w = f3 := (field_of_row h (by rw [hmask]; decide)).trans (by rw [henc]; exact fFunct3_encS ..)
  obtain ⟨henc', hwf, hmask', hmatch'⟩ := hc (fRs1 w) (fRs2 w) (fImmS w)
  exact IsWordOf.decodesInRow ⟨henc'.trans (encS_fields h3 hop), hwf⟩
    ⟨hmask'.trans hmask.symm, hmatch'.trans hmatch.symm⟩

theorem decodesInRow_encB {c : Reg → Reg → BitVec 13 → Instr}
    (rs1 rs2 : Reg) (off : BitVec 13) (h : (c rs1 rs2 off).rowMatches w)
    (hc : ∀ rs1 rs2 off, encode (c rs1 rs2 off) = encB off rs2 rs1 f3 op ∧
      (c rs1 rs2 off).wellFormed = evenOffset off ∧ (c rs1 rs2 off).rowMask = 0x0000707f#32 ∧
      (c rs1 rs2 off).rowMatch = m) : DecodesInRow w (c rs1 rs2 off) := by
  obtain ⟨henc, -, hmask, hmatch⟩ := hc rs1 rs2 off
  have hop : fOpcode w = op := (field_of_row h (by rw [hmask]; decide)).trans (by rw [henc]; exact fOpcode_encB ..)
  have h3 : fFunct3 w = f3 := (field_of_row h (by rw [hmask]; decide)).trans (by rw [henc]; exact fFunct3_encB ..)
  obtain ⟨henc', hwf, hmask', hmatch'⟩ := hc (fRs1 w) (fRs2 w) (fImmB w)
  exact IsWordOf.decodesInRow ⟨henc'.trans (encB_fields h3 hop), hwf.trans (evenOffset_fImmB w)⟩
    ⟨hmask'.trans hmask.symm, hmatch'.trans hmatch.symm⟩

theorem decodesInRow_encU {c : Reg → BitVec 20 → Instr}
    (rd : Reg) (imm : BitVec 20) (h : (c rd imm).rowMatches w)
    (hc : ∀ rd imm, encode (c rd imm) = encU imm rd op ∧ WellFormed (c rd imm) ∧
      (c rd imm).rowMask = 0x0000007f#32 ∧ (c rd imm).rowMatch = m) : DecodesInRow w (c rd imm) := by
  obtain ⟨henc, -, hmask, hmatch⟩ := hc rd imm
  have hop : fOpcode w = op := (field_of_row h (by rw [hmask]; decide)).trans (by rw [henc]; exact fOpcode_encU ..)
  obtain ⟨henc', hwf, hmask', hmatch'⟩ := hc (fRd w) (fImmU w)
  exact IsWordOf.decodesInRow ⟨henc'.trans (encU_fields hop), hwf⟩
    ⟨hmask'.trans hmask.symm, hmatch'.trans hmatch.symm⟩

theorem decodesInRow_encSh6 {c : Reg → Reg → BitVec 6 → Instr}
    (rd rs1 : Reg) (shamt : BitVec 6) (h : (c rd rs1 shamt).rowMatches w)
    (hc : ∀ rd rs1 shamt, encode (c rd rs1 shamt) = encSh6 f6 shamt rs1 f3 rd op ∧ WellFormed (c rd rs1 shamt) ∧
      (c rd rs1 shamt).rowMask = 0xfc00707f#32 ∧ (c rd rs1 shamt).rowMatch = m) : DecodesInRow w (c rd rs1 shamt) := by
  obtain ⟨henc, -, hmask, hmatch⟩ := hc rd rs1 shamt
  have hop : fOpcode w = op := (field_of_row h (by rw [hmask]; decide)).trans (by rw [henc]; exact fOpcode_encSh6 ..)
  have h3 : fFunct3 w = f3 := (field_of_row h (by rw [hmask]; decide)).trans (by rw [henc]; exact fFunct3_encSh6 ..)
  have h6 : fFunct6 w = f6 := (field_of_row h (by rw [hmask]; decide)).trans (by rw [henc]; exact fFunct6_encSh6 ..)
  obtain ⟨henc', hwf, hmask', hmatch'⟩ := hc (fRd w) (fRs1 w) (fShamt6 w)
  exact IsWordOf.decodesInRow ⟨henc'.trans (encSh6_fields h6 h3 hop), hwf⟩
    ⟨hmask'.trans hmask.symm, hmatch'.trans hmatch.symm⟩

theorem decodesInRow_encA {c : BitVec 1 → BitVec 1 → Reg → Reg → Reg → Instr}
    (aq rl : BitVec 1) (rd rs1 rs2 : Reg) (h : (c aq rl rd rs1 rs2).rowMatches w)
    (hc : ∀ aq rl rd rs1 rs2, encode (c aq rl rd rs1 rs2) = encA f5 aq rl rs2 rs1 f3 rd ∧
      WellFormed (c aq rl rd rs1 rs2) ∧ (c aq rl rd rs1 rs2).rowMask = 0xf800707f#32 ∧
      (c aq rl rd rs1 rs2).rowMatch = m) :
    DecodesInRow w (c aq rl rd rs1 rs2) := by
  obtain ⟨henc, -, hmask, hmatch⟩ := hc aq rl rd rs1 rs2
  have hop : fOpcode w = 0x2F#7 :=
    (field_of_row h (by rw [hmask]; decide)).trans (by rw [henc]; exact fOpcode_encA ..)
  have h3 : fFunct3 w = f3 := (field_of_row h (by rw [hmask]; decide)).trans (by rw [henc]; exact fFunct3_encA ..)
  have h5 : fFunct5 w = f5 := (field_of_row h (by rw [hmask]; decide)).trans (by rw [henc]; exact fFunct5_encA ..)
  obtain ⟨henc', hwf, hmask', hmatch'⟩ := hc (fAq w) (fRl w) (fRd w) (fRs1 w) (fRs2 w)
  exact IsWordOf.decodesInRow ⟨henc'.trans (encA_fields h5 h3 hop), hwf⟩
    ⟨hmask'.trans hmask.symm, hmatch'.trans hmatch.symm⟩

/-- LR: the rs2 field is a function code too, 00000 (R199). -/
theorem decodesInRow_encA_lr {c : BitVec 1 → BitVec 1 → Reg → Reg → Instr}
    (aq rl : BitVec 1) (rd rs1 : Reg) (h : (c aq rl rd rs1).rowMatches w)
    (hc : ∀ aq rl rd rs1, encode (c aq rl rd rs1) = encA f5 aq rl 0x00#5 rs1 f3 rd ∧ WellFormed (c aq rl rd rs1) ∧
      (c aq rl rd rs1).rowMask = 0xf9f0707f#32 ∧ (c aq rl rd rs1).rowMatch = m) : DecodesInRow w (c aq rl rd rs1) := by
  obtain ⟨henc, -, hmask, hmatch⟩ := hc aq rl rd rs1
  have hop : fOpcode w = 0x2F#7 :=
    (field_of_row h (by rw [hmask]; decide)).trans (by rw [henc]; exact fOpcode_encA ..)
  have h3 : fFunct3 w = f3 := (field_of_row h (by rw [hmask]; decide)).trans (by rw [henc]; exact fFunct3_encA ..)
  have h5 : fFunct5 w = f5 := (field_of_row h (by rw [hmask]; decide)).trans (by rw [henc]; exact fFunct5_encA ..)
  have hrs2 : fRs2 w = 0x00#5 :=
    (field_of_row h (by rw [hmask]; decide)).trans (by rw [henc]; exact fRs2_encA ..)
  obtain ⟨henc', hwf, hmask', hmatch'⟩ := hc (fAq w) (fRl w) (fRd w) (fRs1 w)
  rw [← hrs2] at henc'
  exact IsWordOf.decodesInRow ⟨henc'.trans (encA_fields h5 h3 hop), hwf⟩
    ⟨hmask'.trans hmask.symm, hmatch'.trans hmatch.symm⟩

end

theorem decodesInRow_jal {w : InstrWord} {rd : Reg} {off : BitVec 21} (h : (Instr.jal rd off).rowMatches w) :
    DecodesInRow w (.jal rd off) := by
  have henc : encode (.jal rd off) = encJ off rd 0x6F#7 := rfl
  have hmask : (Instr.jal rd off).rowMask = 0x0000007f#32 := rfl
  have hop : fOpcode w = 0x6F#7 := (field_of_row h (by rw [hmask]; decide)).trans (by rw [henc]; exact fOpcode_encJ ..)
  exact IsWordOf.decodesInRow (j := .jal (fRd w) (fImmJ w)) ⟨encJ_fields hop, evenOffset_fImmJ w⟩ ⟨rfl, rfl⟩

theorem decodesInRow_fence {w : InstrWord} {fm pred succ : BitVec 4} {rd rs1 : Reg}
    (h : (Instr.fence fm pred succ rd rs1).rowMatches w) : DecodesInRow w (.fence fm pred succ rd rs1) := by
  have henc : encode (.fence fm pred succ rd rs1) = encF fm pred succ rs1 rd := rfl
  have hmask : (Instr.fence fm pred succ rd rs1).rowMask = 0x0000707f#32 := rfl
  have hop : fOpcode w = 0x0F#7 := (field_of_row h (by rw [hmask]; decide)).trans (by rw [henc]; exact fOpcode_encF ..)
  have h3 : fFunct3 w = 0x0#3 := (field_of_row h (by rw [hmask]; decide)).trans (by rw [henc]; exact fFunct3_encF ..)
  exact IsWordOf.decodesInRow (j := .fence (fFm w) (fPred w) (fSucc w) (fRd w) (fRs1 w)) ⟨encF_fields h3 hop, rfl⟩
    ⟨rfl, rfl⟩

theorem decodesInRow_sfenceVma {w : InstrWord} {rs1 rs2 : Reg} (h : (Instr.sfenceVma rs1 rs2).rowMatches w) :
    DecodesInRow w (.sfenceVma rs1 rs2) := by
  have henc : encode (.sfenceVma rs1 rs2) = encR 0x09#7 rs2 rs1 0x0#3 0x00#5 0x73#7 := rfl
  have hmask : (Instr.sfenceVma rs1 rs2).rowMask = 0xfe007fff#32 := rfl
  have hop : fOpcode w = 0x73#7 := (field_of_row h (by rw [hmask]; decide)).trans (by rw [henc]; exact fOpcode_encR ..)
  have h3 : fFunct3 w = 0x0#3 := (field_of_row h (by rw [hmask]; decide)).trans (by rw [henc]; exact fFunct3_encR ..)
  have h7 : fFunct7 w = 0x09#7 := (field_of_row h (by rw [hmask]; decide)).trans (by rw [henc]; exact fFunct7_encR ..)
  have hrd : fRd w = 0x00#5 := (field_of_row h (by rw [hmask]; decide)).trans (by rw [henc]; exact fRd_encR ..)
  have hword : encode (.sfenceVma (fRs1 w) (fRs2 w)) = w := by
    rw [encode, ← hrd]
    exact encR_fields h7 h3 hop
  exact IsWordOf.decodesInRow ⟨hword, rfl⟩ ⟨rfl, rfl⟩

/-- A row whose mask is full has one word. -/
theorem decodesInRow_of_full {w : InstrWord} {i : Instr} (hwf : WellFormed i) (hmask : i.rowMask = 0xffffffff#32)
    (h : i.rowMatches w) : DecodesInRow w i := by
  have hw : encode i = w := by
    have hsame : encode i &&& i.rowMask = w &&& i.rowMask := (rowMatches_encode i).trans h.symm
    rw [hmask] at hsame
    exact (BitVec.and_allOnes (x := encode i)).symm.trans (hsame.trans (BitVec.and_allOnes (x := w)))
  exact IsWordOf.decodesInRow ⟨hw, hwf⟩ ⟨rfl, rfl⟩

/-- A word of a row decodes to an instruction of the row, by format. -/
theorem decodesInRow_of_rowMatches {w : InstrWord} {i : Instr} (h : i.rowMatches w) : DecodesInRow w i := by
  cases i
  case lui rd imm | auipc rd imm => exact decodesInRow_encU rd imm h fun _ _ => ⟨rfl, rfl, rfl, rfl⟩
  case jal => exact decodesInRow_jal h
  case beq rs1 rs2 off | bne rs1 rs2 off | blt rs1 rs2 off | bltu rs1 rs2 off | bge rs1 rs2 off | bgeu rs1 rs2 off =>
    exact decodesInRow_encB rs1 rs2 off h fun _ _ _ => ⟨rfl, rfl, rfl, rfl⟩
  case sb rs1 rs2 imm | sh rs1 rs2 imm | sw rs1 rs2 imm | sd rs1 rs2 imm =>
    exact decodesInRow_encS rs1 rs2 imm h fun _ _ _ => ⟨rfl, rfl, rfl, rfl⟩
  case slli rd rs1 shamt | srli rd rs1 shamt | srai rd rs1 shamt =>
    exact decodesInRow_encSh6 rd rs1 shamt h fun _ _ _ => ⟨rfl, rfl, rfl, rfl⟩
  case addi rd rs1 imm | slti rd rs1 imm | sltiu rd rs1 imm | andi rd rs1 imm | ori rd rs1 imm | xori rd rs1 imm
      | jalr rd rs1 imm | lb rd rs1 imm | lbu rd rs1 imm | lh rd rs1 imm | lhu rd rs1 imm | lw rd rs1 imm
      | lwu rd rs1 imm | ld rd rs1 imm | addiw rd rs1 imm =>
    exact decodesInRow_encI rd rs1 imm h fun _ _ _ => ⟨rfl, rfl, rfl, rfl⟩
  case fenceI a rd u =>
    exact decodesInRow_encI (c := fun rd u a => .fenceI a rd u) rd u a h fun _ _ _ => ⟨rfl, rfl, rfl, rfl⟩
  case csrrw rd a u =>
    exact decodesInRow_encI (c := fun rd u a => .csrrw rd a u) rd u a h fun _ _ _ => ⟨rfl, rfl, rfl, rfl⟩
  case csrrs rd a u =>
    exact decodesInRow_encI (c := fun rd u a => .csrrs rd a u) rd u a h fun _ _ _ => ⟨rfl, rfl, rfl, rfl⟩
  case csrrc rd a u =>
    exact decodesInRow_encI (c := fun rd u a => .csrrc rd a u) rd u a h fun _ _ _ => ⟨rfl, rfl, rfl, rfl⟩
  case csrrwi rd a u =>
    exact decodesInRow_encI (c := fun rd u a => .csrrwi rd a u) rd u a h fun _ _ _ => ⟨rfl, rfl, rfl, rfl⟩
  case csrrsi rd a u =>
    exact decodesInRow_encI (c := fun rd u a => .csrrsi rd a u) rd u a h fun _ _ _ => ⟨rfl, rfl, rfl, rfl⟩
  case csrrci rd a u =>
    exact decodesInRow_encI (c := fun rd u a => .csrrci rd a u) rd u a h fun _ _ _ => ⟨rfl, rfl, rfl, rfl⟩
  case add rd rs1 rs2 | sub rd rs1 rs2 | slt rd rs1 rs2 | sltu rd rs1 rs2 | and rd rs1 rs2 | or rd rs1 rs2
      | xor rd rs1 rs2 | sll rd rs1 rs2 | srl rd rs1 rs2 | sra rd rs1 rs2 | slliw rd rs1 rs2 | srliw rd rs1 rs2
      | sraiw rd rs1 rs2 | addw rd rs1 rs2 | subw rd rs1 rs2 | sllw rd rs1 rs2 | srlw rd rs1 rs2 | sraw rd rs1 rs2 =>
    exact decodesInRow_encR rd rs1 rs2 h fun _ _ _ => ⟨rfl, rfl, rfl, rfl⟩
  case fence => exact decodesInRow_fence h
  case amoswapW aq rl rd rs1 rs2 | amoswapD aq rl rd rs1 rs2 | amoaddW aq rl rd rs1 rs2 | amoaddD aq rl rd rs1 rs2
      | amoandW aq rl rd rs1 rs2 | amoandD aq rl rd rs1 rs2 | amoorW aq rl rd rs1 rs2 | amoorD aq rl rd rs1 rs2
      | amoxorW aq rl rd rs1 rs2 | amoxorD aq rl rd rs1 rs2 | amomaxW aq rl rd rs1 rs2 | amomaxD aq rl rd rs1 rs2
      | amominW aq rl rd rs1 rs2 | amominD aq rl rd rs1 rs2 | amomaxuW aq rl rd rs1 rs2
      | amomaxuD aq rl rd rs1 rs2 | amominuW aq rl rd rs1 rs2 | amominuD aq rl rd rs1 rs2 | scW aq rl rd rs1 rs2
      | scD aq rl rd rs1 rs2 =>
    exact decodesInRow_encA aq rl rd rs1 rs2 h fun _ _ _ _ _ => ⟨rfl, rfl, rfl, rfl⟩
  case lrW aq rl rd rs1 | lrD aq rl rd rs1 =>
    exact decodesInRow_encA_lr aq rl rd rs1 h fun _ _ _ _ => ⟨rfl, rfl, rfl, rfl⟩
  case sfenceVma => exact decodesInRow_sfenceVma h
  case ecall | ebreak | mret | sret | wfi => exact decodesInRow_of_full rfl rfl h

/-- Settles O3: a row fixes the function codes that select its instruction, and the word of an instruction is one of
its row. -/
theorem decodingFollowsTheOpcodeTable : Obligations.DecodingFollowsTheOpcodeTable := by
  refine fun w i => ⟨decodesInRow_of_rowMatches, ?_⟩
  rintro ⟨j, hj, hmask, hmatch⟩
  obtain ⟨rfl, -⟩ := decodeWord_isWordOf hj
  have hrow : j.rowMatches (encode j) := rowMatches_encode j
  rwa [Instr.rowMatches, hmask, hmatch] at hrow

/-- Settles O4: each word is evaluated. -/
theorem exampleWordsDecode : Obligations.ExampleWordsDecode := by
  refine ⟨?_, ?_, ?_, ?_, ?_, ?_, ?_, ?_, ?_, ?_, ?_, ?_⟩ <;> rfl

end Sys2Proof
end

-- ==== Proofs of what an instruction can do, and of the invariant (spec/00_scope.md R11) ====
section
/-! PROOFS. Every instruction answers a next state of one of a few shapes (`ExecOutcome`). From these shapes follow that
every step answers (R441), that every step keeps `Inv`, and what U mode and S mode leave alone (spec/60_exceptions.md
section 7). -/

namespace Sys2Proof.Machine

/-! ## What an instruction can do -/

/-- The next states of an instruction: a trap; a completion that writes at most one register; a data access that passes
every check; a CSR access that passes its check; a return; a fence. -/
inductive ExecOutcome (i : Instr) (s : State) : State → Prop where
  | trap (e : Exc) (epc tval : Word) : ExecOutcome i s (takeTrap s (.exc e) epc tval)
  | goes (rd : Reg) (v : Word) {target : Word} (h : target = s.nextPc ∨ target.toNat % 4 = 0) :
      ExecOutcome i s ((s.setReg rd v).retire target)
  | loads {va : Word} {w : Width} {tr : Translation} (rd : Reg) (v : Word)
      (ha : dataAccess s i = some (.load, va, w.bytes)) (h : DataOk s va .load w.bytes tr) :
      ExecOutcome i s (((applyUpdate s tr.update).setReg rd v).retire s.nextPc)
  | stores {va : Word} {w : Width} {tr : Translation} (v : Word) (rd : Reg) (x : Word)
      (ha : dataAccess s i = some (.store, va, w.bytes)) (h : DataOk s va .store w.bytes tr) :
      ExecOutcome i s (((physWrite (applyUpdate s tr.update) tr.pa w.bytes v).setReg rd x).retire s.nextPc)
  | csr {a : CsrAddr} {c : Csr} {writes : Bool} (v : Word) (rd : Reg) (x : Word) (h : csrCheck s a writes = some c) :
      ExecOutcome i s (retireCsr ((if writes then csrWrite s v c else s).setReg rd x) c writes)
  | fenceI (h : ∃ imm rd rs1, i = .fenceI imm rd rs1) :
      ExecOutcome i s ({ s with codeHistory := [] }.retire s.nextPc)
  | sfenceVma (h : ∃ rs1 rs2, i = .sfenceVma rs1 rs2) (hU : s.priv ≠ .U) : ExecOutcome i s (fenceVma s)
  | mret (h : i = .mret) (hM : s.priv = .M) : ExecOutcome i s (returnM s)
  | sret (h : i = .sret) (hU : s.priv ≠ .U) : ExecOutcome i s (returnS s)

/-- An answer of one of the shapes. -/
def Answers (i : Instr) (s : State) (r : Result) : Prop := ∃ t, r = .next t ∧ ExecOutcome i s t

theorem State.setReg_zero (s : State) (v : Word) : s.setReg 0#5 v = s := rfl

section
variable (i : Instr) (s : State)

theorem ExecOutcome.goes_only {target : Word} (h : target = s.nextPc ∨ target.toNat % 4 = 0) :
    ExecOutcome i s (s.retire target) := by
  simpa only [State.setReg_zero] using ExecOutcome.goes (i := i) 0#5 0#64 h

theorem Answers.traps {r : Result} {e : Exc} {epc tval : Word} (h : Traps s r e epc tval) : Answers i s r :=
  ⟨_, h, .trap e epc tval⟩

theorem answers_raiseIllegal (w : InstrWord) : Answers i s (.next (s.raiseIllegal w)) := ⟨_, rfl, .trap ..⟩

theorem answers_retire : Answers i s (.next (s.retire s.nextPc)) := ⟨_, rfl, .goes_only i s (.inl rfl)⟩

theorem answers_writeAndRetire (rd : Reg) (v : Word) : Answers i s (s.writeAndRetire rd v) :=
  ⟨_, rfl, .goes rd v (.inl rfl)⟩

theorem answers_jumpTo (rd : Reg) (target : Word) : Answers i s (jumpTo s rd target) := by
  by_cases h : target.toNat % 4 = 0
  · exact ⟨(s.setReg rd s.nextPc).retire target, by simp [jumpTo, misaligned, h], .goes rd _ (.inr h)⟩
  · exact .traps i s (jumpTo_misaligned h)

theorem answers_branchTo (taken : Bool) (off : BitVec 13) : Answers i s (branchTo s taken off) := by
  cases taken
  · exact answers_retire i s
  · by_cases h : (s.pc + off.signExtend 64).toNat % 4 = 0
    · have hm : misaligned (s.pc + immB off) 4 = false := decide_eq_false (not_not.2 h)
      exact ⟨s.retire (s.pc + immB off), by simp [branchTo, hm], .goes_only i s (.inr h)⟩
    · exact .traps i s (branchTo_misaligned h)

variable {i s}

theorem answers_loadTo {va : Word} {w : Width} (ha : dataAccess s i = some (.load, va, w.bytes)) (rd : Reg)
    (ext : Word → Word) : Answers i s (loadTo s rd va w ext) := by
  obtain ⟨e, he⟩ | ⟨tr, htr⟩ := resolveData_error_or_dataOk s va .load w
  · exact .traps i s (loadTo_error he)
  · refine ⟨_, loadTo_ok htr, ?_⟩
    simpa only [State.nextPc, State.applyUpdate_pc] using ExecOutcome.loads rd _ ha htr

theorem answers_storeFrom {va : Word} {w : Width} (ha : dataAccess s i = some (.store, va, w.bytes)) (v : Word) :
    Answers i s (storeFrom s va w v) := by
  obtain ⟨e, he⟩ | ⟨tr, htr⟩ := resolveData_error_or_dataOk s va .store w
  · exact .traps i s (storeFrom_error he)
  · refine ⟨_, storeFrom_ok htr, ?_⟩
    simpa only [State.setReg_zero] using ExecOutcome.stores v 0#5 0#64 ha htr

theorem answers_storeConditional {va : Word} {w : Width} (ha : dataAccess s i = some (.store, va, w.bytes)) (rd : Reg)
    (v : Word) : Answers i s (storeConditional s rd va w v) := by
  obtain ⟨e, he⟩ | ⟨tr, htr⟩ := resolveData_error_or_dataOk s va .store w
  · exact .traps i s (storeConditional_error he)
  · refine ⟨_, storeConditional_ok htr, ?_⟩
    simpa only [State.nextPc, State.physWrite_pc, State.applyUpdate_pc] using ExecOutcome.stores v rd 0#64 ha htr

theorem answers_amoTo {va : Word} {w : Width} (ha : dataAccess s i = some (.store, va, w.bytes)) (rd : Reg)
    (f ext : Word → Word) : Answers i s (amoTo s rd va w f ext) := by
  obtain ⟨e, he⟩ | ⟨tr, htr⟩ := resolveData_error_or_dataOk s va .store w
  · exact .traps i s (amoTo_error he)
  · refine ⟨_, amoTo_ok htr, ?_⟩
    simpa only [State.nextPc, State.physWrite_pc, State.applyUpdate_pc] using ExecOutcome.stores _ rd _ ha htr

variable (i s)

theorem answers_csrInstr (w : InstrWord) (rd : Reg) (a : CsrAddr) (writes : Bool) (f : Word → Word) :
    Answers i s (csrInstr s w rd a writes f) := by
  cases h : csrCheck s a writes with
  | none => exact csrInstr_illegal h ▸ answers_raiseIllegal i s w
  | some c => exact ⟨_, csrInstr_legal h, .csr _ rd _ h⟩

theorem answers_execEcall : Answers i s (execEcall s) := by
  unfold execEcall
  cases s.priv with
  | U | S | M => exact ⟨_, rfl, .trap ..⟩

theorem answers_execMret : Answers .mret s (execMret s) := by
  obtain ⟨hM, h⟩ | h := execMret_cases s
  · exact ⟨_, h, .mret rfl hM⟩
  · exact h ▸ answers_raiseIllegal .mret s _

theorem answers_execSret : Answers .sret s (execSret s) := by
  obtain ⟨hU, h⟩ | h := execSret_cases s
  · exact ⟨_, h, .sret rfl hU⟩
  · exact h ▸ answers_raiseIllegal .sret s _

theorem answers_execSfenceVma (rs1 rs2 : Reg) : Answers (.sfenceVma rs1 rs2) s (execSfenceVma rs1 rs2 s) := by
  have completes (hU : s.priv ≠ .U) : Answers (.sfenceVma rs1 rs2) s (.next (fenceVma s)) :=
    ⟨_, rfl, .sfenceVma ⟨rs1, rs2, rfl⟩ hU⟩
  unfold execSfenceVma
  split
  next => exact answers_raiseIllegal ..
  next hS =>
    split
    next => exact answers_raiseIllegal ..
    next => exact completes (by simp [hS])
  next hM => exact completes (by simp [hM])

theorem answers_execWfi : Answers i s (execWfi s) := by
  unfold execWfi
  split
  next => exact answers_raiseIllegal ..
  next => exact answers_retire i s

/-- Every instruction answers a next state, of one of the shapes. -/
theorem exec_answers : Answers i s (exec i s) := by
  cases i
  case lui | auipc | addi | slti | sltiu | andi | ori | xori | slli | srli | srai | add | sub | slt | sltu | and
      | or | xor | sll | srl | sra | addiw | slliw | srliw | sraiw | addw | subw | sllw | srlw | sraw =>
    exact answers_writeAndRetire ..
  case jal | jalr => exact answers_jumpTo ..
  case beq | bne | blt | bltu | bge | bgeu => exact answers_branchTo ..
  case lb | lbu | lh | lhu | lw | lwu | ld | lrW | lrD => exact answers_loadTo rfl ..
  case sb | sh | sw | sd => exact answers_storeFrom rfl ..
  case scW | scD => exact answers_storeConditional rfl ..
  case amoswapW | amoswapD | amoaddW | amoaddD | amoandW | amoandD | amoorW | amoorD | amoxorW | amoxorD | amomaxW
      | amomaxD | amominW | amominD | amomaxuW | amomaxuD | amominuW | amominuD =>
    exact answers_amoTo rfl ..
  case csrrw | csrrs | csrrc | csrrwi | csrrsi | csrrci => rw [exec]; exact answers_csrInstr ..
  case fence => exact answers_retire ..
  case fenceI imm rd rs1 => exact ⟨_, rfl, .fenceI ⟨imm, rd, rs1, rfl⟩⟩
  case ecall => exact answers_execEcall ..
  case ebreak => exact ⟨_, rfl, .trap ..⟩
  case mret => exact answers_execMret s
  case sret => exact answers_execSret s
  case sfenceVma rs1 rs2 => exact answers_execSfenceVma s rs1 rs2
  case wfi => exact answers_execWfi ..

end

theorem exec_outcome {i : Instr} {s t : State} (h : exec i s = .next t) : ExecOutcome i s t := by
  obtain ⟨u, hu, hout⟩ := exec_answers i s
  exact Host.Outcome.next.inj (hu.symm.trans h) ▸ hout

/-! ## Every step answers -/

theorem csrWrite_board (s : State) (v : Word) (c : Csr) : (csrWrite s v c).board = s.board := by
  cases c <;> rfl

theorem csrWrite_tick (s : State) (v : Word) (c : Csr) : (csrWrite s v c).tick = s.tick := by
  cases c <;> rfl

/-- A CSR instruction changes the pc and minstret beside what the write changes; all other storage is that of `s`. -/
theorem retireCsr_eq (s : State) (c : Csr) (writes : Bool) :
    retireCsr s c writes = { s with
      pc := s.nextPc
      minstret := if writes = true ∧ c = .minstret then s.minstret else countedInstret s } := by
  unfold retireCsr
  by_cases h : writes = true ∧ c = .minstret
  · simp [h]
  · rw [if_neg (by simpa using h), if_neg h]
    rfl

theorem ExecOutcome.board_tick {i : Instr} {s t : State} (h : ExecOutcome i s t) :
    t.board = s.board ∧ t.tick = s.tick := by
  cases h with
  | trap | goes | loads | stores | fenceI | sfenceVma | mret | sret => simp
  | @csr a c writes =>
    rw [retireCsr_eq]
    cases writes
    · exact ⟨rfl, rfl⟩
    · exact ⟨csrWrite_board .., csrWrite_tick ..⟩

/-- The state a fetch leaves is that of the update of the entry it went through (R124). -/
theorem fetchWord_cases {s u : State} {va : Word} {w : InstrWord} (h : fetchWord s va = .ok (w, u)) :
    ∃ tr, translateVa s va .fetch s.priv = .ok tr ∧ physAccessible s.board tr.pa 4 .fetch = true ∧
      u = applyUpdate s tr.update ∧ w = fetchedWord u tr.pa := by
  unfold fetchWord at h
  split at h
  next => cases h
  next pa s1 hr =>
    obtain ⟨tr, htr, hacc, rfl, rfl⟩ := resolve_cases hr
    obtain ⟨rfl, rfl⟩ := Prod.mk.inj (Except.ok.inj h)
    exact ⟨tr, htr, hacc, rfl, rfl⟩

/-- Settles O10: each of the four ways of a step answers, and time moves the counter by one. -/
theorem everyStepAnswersANextState : Obligations.EveryStepAnswersANextState := by
  intro s
  unfold step
  split
  next i hi => exact ⟨_, rfl, by simp, by simp⟩
  next hi =>
    split
    next e hf => exact ⟨_, rfl, by simp [State.raise], by simp [State.raise]⟩
    next w u hf =>
      obtain ⟨tr, -, -, rfl, -⟩ := fetchWord_cases hf
      split
      next => exact ⟨_, rfl, by simp [State.raiseIllegal, State.raise], by simp [State.raiseIllegal, State.raise]⟩
      next i hd =>
        obtain ⟨t, ht, hout⟩ := exec_answers i (applyUpdate s tr.update)
        obtain ⟨hboard, htick⟩ := hout.board_tick
        exact ⟨t.elapse, by rw [ht]; rfl, by simp [hboard], by simp [htick]⟩

/-! ## The invariant -/

theorem Inv.pc_aligned {s : State} (h : Inv s) : s.pc.toNat % 4 = 0 := by
  obtain ⟨-, hpc, -⟩ := h
  exact hpc

theorem nextPc_aligned {s : State} (h : s.pc.toNat % 4 = 0) : s.nextPc.toNat % 4 = 0 := by
  simp only [State.nextPc, BitVec.toNat_add, BitVec.toNat_ofNat]
  omega

/-- A device write never takes the record of a programmed controller back (R412). -/
theorem physWrite_plicProgrammed {s : State} (pa : Word) (n : Nat) (v : Word) (h : s.plicProgrammed = true) :
    (physWrite s pa n v).plicProgrammed = true := by
  simp [physWrite, h]

theorem Inv.physWrite {s : State} (h : Inv s) (pa : Word) (n : Nat) (v : Word) : Inv (physWrite s pa n v) := by
  obtain ⟨hmem, hpc, hmepc, hsepc, hmedeleg, hmideleg, hmie, hinhibit, hext⟩ := h
  exact ⟨physWrite_mem_wf pa n v hmem, hpc, hmepc, hsepc, hmedeleg, hmideleg, hmie, hinhibit,
    fun he => physWrite_plicProgrammed pa n v (hext he)⟩

theorem Inv.applyUpdate {s : State} (h : Inv s) : ∀ u : Option (Word × Word), Inv (applyUpdate s u)
  | none => h
  | some u => h.physWrite u.1 8 u.2

theorem Inv.setReg {s : State} (h : Inv s) (rd : Reg) (v : Word) : Inv (s.setReg rd v) := h

theorem Inv.retire {s : State} (h : Inv s) {n : Word} (hn : n.toNat % 4 = 0) : Inv (s.retire n) := by
  obtain ⟨hmem, -, hrest⟩ := h
  exact ⟨hmem, hn, hrest⟩

theorem Inv.takeTrap {s : State} (h : Inv s) (c : Cause) (epc tval : Word) : Inv (takeTrap s c epc tval) := by
  obtain ⟨hmem, -, hmepc, hsepc, hrest⟩ := h
  refine ⟨hmem, takeTrap_pc_aligned s c epc tval, ?_, ?_, hrest⟩
  · rw [State.takeTrap_mepc]
    split
    · exact hmepc
    · exact epcValue_aligned epc
  · rw [State.takeTrap_sepc]
    split
    · exact epcValue_aligned epc
    · exact hsepc

/-- The S-level line rises only once the controller is programmed (R412). -/
theorem Inv.elapse {s : State} (h : Inv s) : Inv s.elapse := by
  obtain ⟨hmem, hpc, hmepc, hsepc, hmedeleg, hmideleg, hmie, hinhibit, -⟩ := h
  refine ⟨hmem, hpc, hmepc, hsepc, hmedeleg, hmideleg, hmie, hinhibit, fun he => ?_⟩
  rw [State.elapse_extSei, Bool.and_eq_true] at he
  exact he.left

theorem and_mask_and_not (v m : Word) : v &&& m &&& ~~~m = 0#64 := by
  rw [BitVec.and_assoc, BitVec.and_not_self]
  exact BitVec.and_zero

/-- A write of sie reaches bits of mie that exist (R73). -/
theorem mie_after_sie {m : Word} (v : Word) (h : m &&& ~~~0xAAA#64 = 0#64) :
    ((m &&& ~~~0x222#64) ||| (v &&& 0x222#64)) &&& ~~~0xAAA#64 = 0#64 := by
  have hm : m &&& ~~~0x222#64 &&& ~~~0xAAA#64 = 0#64 := by
    rw [BitVec.and_assoc, BitVec.and_comm (~~~0x222#64), ← BitVec.and_assoc, h, BitVec.zero_and]
  have hv : v &&& 0x222#64 &&& ~~~0xAAA#64 = 0#64 := by
    rw [BitVec.and_assoc, show 0x222#64 &&& ~~~0xAAA#64 = 0#64 by decide, BitVec.and_zero]
  rw [BitVec.and_or_distrib_right, hm, hv, BitVec.or_zero]

/-- A CSR write puts the value through the write mask, which holds no bit that is hardwired to 0 (R384). -/
theorem Inv.csrWrite {s : State} (h : Inv s) (v : Word) (c : Csr) : Inv (csrWrite s v c) := by
  obtain ⟨hmem, hpc, hmepc, hsepc, hmedeleg, hmideleg, hmie, hinhibit, hext⟩ := h
  cases c
  case mepc => exact ⟨hmem, hpc, epcValue_aligned v, hsepc, hmedeleg, hmideleg, hmie, hinhibit, hext⟩
  case sepc => exact ⟨hmem, hpc, hmepc, epcValue_aligned v, hmedeleg, hmideleg, hmie, hinhibit, hext⟩
  case medeleg => exact ⟨hmem, hpc, hmepc, hsepc, and_mask_and_not .., hmideleg, hmie, hinhibit, hext⟩
  case mideleg => exact ⟨hmem, hpc, hmepc, hsepc, hmedeleg, and_mask_and_not .., hmie, hinhibit, hext⟩
  case mie => exact ⟨hmem, hpc, hmepc, hsepc, hmedeleg, hmideleg, and_mask_and_not .., hinhibit, hext⟩
  case sie => exact ⟨hmem, hpc, hmepc, hsepc, hmedeleg, hmideleg, mie_after_sie v hmie, hinhibit, hext⟩
  case mcountinhibit => exact ⟨hmem, hpc, hmepc, hsepc, hmedeleg, hmideleg, hmie, and_mask_and_not .., hext⟩
  all_goals exact ⟨hmem, hpc, hmepc, hsepc, hmedeleg, hmideleg, hmie, hinhibit, hext⟩

theorem Inv.retireCsr {s : State} (h : Inv s) (c : Csr) (writes : Bool) : Inv (retireCsr s c writes) := by
  obtain ⟨hmem, hpc, hrest⟩ := h
  rw [retireCsr_eq]
  exact ⟨hmem, nextPc_aligned hpc, hrest⟩

theorem Inv.of_outcome {i : Instr} {s t : State} (h : Inv s) (hout : ExecOutcome i s t) : Inv t := by
  have hpc := h.pc_aligned
  cases hout with
  | trap e epc tval => exact h.takeTrap ..
  | goes rd v htarget =>
    obtain rfl | haligned := htarget
    · exact (h.setReg rd v).retire (nextPc_aligned hpc)
    · exact (h.setReg rd v).retire haligned
  | loads rd v => exact ((h.applyUpdate _).setReg rd v).retire (nextPc_aligned hpc)
  | stores v rd x => exact (((h.applyUpdate _).physWrite _ _ v).setReg rd x).retire (nextPc_aligned hpc)
  | @csr _ c writes v rd x =>
    cases writes
    · exact (h.setReg rd x).retireCsr c false
    · exact ((h.csrWrite v c).setReg rd x).retireCsr c true
  | fenceI => exact Inv.retire (s := { s with codeHistory := [] }) h (nextPc_aligned hpc)
  | sfenceVma =>
    exact Inv.retire (s := { s with pteHistory := [], rootHistory := [] }) h (nextPc_aligned hpc)
  | mret =>
    obtain ⟨hmem, -, hrest⟩ := h
    exact ⟨hmem, epcValue_aligned s.mepc, hrest⟩
  | sret =>
    obtain ⟨hmem, -, hrest⟩ := h
    exact ⟨hmem, epcValue_aligned s.sepc, hrest⟩

/-- Settles O11: a trap, the update of a page-table entry, every shape of an instruction and the passing of time keep
`Inv`. -/
theorem everyStepKeepsTheInvariant : Obligations.EveryStepKeepsTheInvariant := by
  intro s t h hstep
  cases step_outcome hstep with
  | interrupt => exact (h.takeTrap ..).elapse
  | fetchFault => exact (h.takeTrap ..).elapse
  | noInstruction hi hf =>
    obtain ⟨tr, -, -, rfl, -⟩ := fetchWord_cases hf
    exact ((h.applyUpdate _).takeTrap ..).elapse
  | executed hi hf hd hx =>
    obtain ⟨tr, -, -, rfl, -⟩ := fetchWord_cases hf
    exact ((h.applyUpdate _).of_outcome (exec_outcome hx)).elapse

theorem inv_resetOn {b : Board} (h : b.resetVector.toNat % 4 = 0) : Inv (State.resetOn b) :=
  ⟨rfl, h, by simp [State.resetOn]⟩

/-- Settles O12: at reset memory is empty, and every register of `Inv` but the pc is 0. -/
theorem invariantHoldsAtReset : Obligations.InvariantHoldsAtReset :=
  ⟨inv_resetOn (by decide), fun _ => inv_resetOn⟩

/-! ## What the modes leave alone (spec/60_exceptions.md section 7) -/

theorem SameSystem.retireCsr {s t : State} (h : SameSystem s t) (c : Csr) (writes : Bool) :
    SameSystem s (retireCsr t c writes) := by
  rw [retireCsr_eq]
  exact h

/-- No CSR write is legal in U mode: what U mode may reach is read-only (R31, R383). -/
theorem csrCheck_user_write {s : State} (hU : s.priv = .U) (a : CsrAddr) : csrCheck s a true = none := by
  refine Option.eq_none_iff_forall_ne_some.2 fun c h => ?_
  obtain ⟨-, hlevel, hro, -⟩ := csrCheck_eq_some_iff.1 h
  rw [hU] at hlevel
  have key : ∀ c, csrLevel c ≤ Priv.level .U → csrReadOnly c = true := by intro c; cases c <;> decide
  exact hro ⟨rfl, key c hlevel⟩

/-- Settles O52: no CSR write, no return and no SFENCE.VMA is legal in U mode, and nothing else that completes
reaches the system. -/
theorem userModeLeavesTheSystemAlone : Obligations.UserModeLeavesTheSystemAlone := by
  intro i s t hU hx
  cases exec_outcome hx with
  | trap e epc tval => exact .inl ⟨e, epc, tval, rfl⟩
  | goes | loads | stores =>
    exact .inr (by simp [SameSystem, SameMode, SameTrapRegs, SameControl, SameLines])
  | fenceI => exact .inr ⟨SameSystem.refl s, rfl, rfl, rfl, rfl⟩
  | @csr a c writes v rd x h =>
    cases writes
    · refine .inr ⟨(SameSystem.refl s).retireCsr c false, ?_⟩
      simp [retireCsr_eq, SameLines]
    · exact absurd h (by simp [csrCheck_user_write hU])
  | sfenceVma _ hU' | sret _ hU' => exact absurd hU hU'
  | mret _ hM => cases hU.symm.trans hM

/-- The fields of mstatus that sstatus does not show (R71). -/
def SameMachineFields (m m' : Mstatus) : Prop :=
  m'.tsr = m.tsr ∧ m'.tw = m.tw ∧ m'.tvm = m.tvm ∧ m'.mprv = m.mprv ∧ m'.mpp = m.mpp ∧ m'.mpie = m.mpie ∧
    m'.mie = m.mie

theorem SameMachineFields.value {m m' : Mstatus} (h : SameMachineFields m m') :
    m'.value &&& 0x721888#64 = m.value &&& 0x721888#64 := by
  obtain ⟨htsr, htw, htvm, hmprv, hmpp, hmpie, hmie⟩ := h
  refine BitVec.eq_of_getLsbD_eq fun k hk => ?_
  simp only [BitVec.getLsbD_and, Mstatus.value_getLsbD, Mstatus.stored_getLsbD, htsr, htw, htvm, hmprv, hmpp, hmpie,
    hmie]
  interval_cases k <;> simp

/-- M mode's own state: its trap, vector, delegation, scratch and counter-control registers, the M-level bits of mie,
STIP and SEIP, and the fields of mstatus that sstatus does not show. -/
def SameMachineState (s t : State) : Prop :=
  t.mepc = s.mepc ∧ t.mcause = s.mcause ∧ t.mtval = s.mtval ∧ t.mtvec = s.mtvec ∧ t.medeleg = s.medeleg ∧
    t.mideleg = s.mideleg ∧ t.mscratch = s.mscratch ∧ t.mcounteren = s.mcounteren ∧
    t.mcountinhibit = s.mcountinhibit ∧ t.mcycle = s.mcycle ∧ t.stip = s.stip ∧ t.seipSw = s.seipSw ∧
    t.mie &&& 0x888#64 = s.mie &&& 0x888#64 ∧
    csrRead t .mstatus &&& 0x721888#64 = csrRead s .mstatus &&& 0x721888#64

theorem SameMachineState.refl (s : State) : SameMachineState s s := by simp [SameMachineState]

theorem SameMachineState.of_fields {s : State} {m : Mstatus} (h : SameMachineFields s.mstatus m) :
    SameMachineState s { s with mstatus := m } := by
  refine ⟨rfl, rfl, rfl, rfl, rfl, rfl, rfl, rfl, rfl, rfl, rfl, rfl, rfl, h.value⟩

theorem mie_after_sie_machine (m v : Word) :
    ((m &&& ~~~0x222#64) ||| (v &&& 0x222#64)) &&& 0x888#64 = m &&& 0x888#64 := by
  rw [BitVec.and_or_distrib_right, BitVec.and_assoc, BitVec.and_assoc,
    show ~~~0x222#64 &&& 0x888#64 = 0x888#64 by decide, show 0x222#64 &&& 0x888#64 = 0#64 by decide, BitVec.and_zero,
    BitVec.or_zero]

/-- A CSR that S mode may write shows nothing of M mode's own state (R71, R73, R74). -/
theorem csrWrite_supervisor {s : State} {a : CsrAddr} {c : Csr} (hS : s.priv = .S)
    (h : csrCheck s a true = some c) (v : Word) : SameMachineState s (csrWrite s v c) := by
  obtain ⟨-, hlevel, hro, -⟩ := csrCheck_eq_some_iff.1 h
  rw [hS] at hlevel
  cases c
  case sstatus => exact .of_fields ⟨rfl, rfl, rfl, rfl, rfl, rfl, rfl⟩
  case sie =>
    exact ⟨rfl, rfl, rfl, rfl, rfl, rfl, rfl, rfl, rfl, rfl, rfl, rfl, mie_after_sie_machine .., rfl⟩
  case sedeleg | sideleg | stvec | scounteren | sscratch | sepc | scause | stval | sip | satp =>
    exact SameMachineState.refl s
  case cycle | time | instret | hpmcounter3 | hpmcounter4 => exact absurd ⟨rfl, rfl⟩ hro
  all_goals exact absurd hlevel (by decide)

/-- Settles O53: the CSRs that S mode may write and SRET reach only what sstatus, sie and sip show, and nothing else
that completes reaches M mode's state. -/
theorem supervisorModeLeavesMachineStateAlone : Obligations.SupervisorModeLeavesMachineStateAlone := by
  intro i s t hS hx
  suffices h : (∃ e epc tval, t = takeTrap s (.exc e) epc tval) ∨ SameMachineState s t from h
  cases exec_outcome hx with
  | trap e epc tval => exact .inl ⟨e, epc, tval, rfl⟩
  | goes | loads | stores => exact .inr (by simp [SameMachineState, csrRead])
  | fenceI | sfenceVma => exact .inr (SameMachineState.refl s)
  | @csr a c writes v rd x h =>
    rw [retireCsr_eq]
    cases writes
    · exact .inr (SameMachineState.refl s)
    · exact .inr (csrWrite_supervisor hS h v)
  | mret _ hM => cases hS.symm.trans hM
  | sret => exact .inr (SameMachineState.of_fields (s := s) ⟨rfl, rfl, rfl, rfl, rfl, rfl, rfl⟩)

end Sys2Proof.Machine
end

-- ==== Proofs of the step and of reset (spec/00_scope.md R11, spec/70_reset_and_hazards.md) ====
section
/-! PROOFS. The order of a step (R11): interrupt, fetch, decode, instruction; which interrupt is taken (R421, R422);
which word a fetch answers (R124, R162); what reset leaves (R470). -/

namespace Sys2Proof.Machine

/-! ## The four ways of a step -/

section
variable {s s1 : State} {w : InstrWord}

theorem step_of_interrupt {i : Irq} (hi : interruptTaken s = some i) :
    step s = elapseResult (.next (takeTrap s (.irq i) s.pc 0#64)) := by
  simp [step, hi]

theorem step_of_fetch_error {e : Exc} (hi : interruptTaken s = none) (hf : fetchWord s s.pc = .error e) :
    step s = elapseResult (.next (takeTrap s (.exc e) s.pc s.pc)) := by
  simp [step, hi, hf, State.raise]

theorem step_of_decode_error {d : DecodeError} (hi : interruptTaken s = none) (hf : fetchWord s s.pc = .ok (w, s1))
    (hd : decodeWord w = .error d) : step s = elapseResult (.next (s1.raiseIllegal w)) := by
  simp [step, hi, hf, hd]

theorem step_of_decoded {i : Instr} (hi : interruptTaken s = none) (hf : fetchWord s s.pc = .ok (w, s1))
    (hd : decodeWord w = .ok i) : step s = elapseResult (exec i s1) := by
  simp [step, hi, hf, hd]

end

/-- Settles O5. -/
theorem stepRunsTheDecodedInstruction : Obligations.StepRunsTheDecodedInstruction :=
  fun _ _ _ _ => step_of_decoded

/-- Settles O8. -/
theorem interruptIsTakenBeforeTheFetch : Obligations.InterruptIsTakenBeforeTheFetch :=
  fun _ _ => step_of_interrupt

/-! ## Values in memory -/

/-- Two values of the same bytes agree in the bits of those bytes (R122). -/
theorem HoldsBytes.getLsbD_eq {m : Memory} {a n : Nat} {v v' : Word} (hv : HoldsBytes m a n v)
    (hv' : HoldsBytes m a n v') {i : Nat} (hi : i < 8 * n) : v.getLsbD i = v'.getLsbD i := by
  have hbyte : v.extractLsb' (8 * (i / 8)) 8 = v'.extractLsb' (8 * (i / 8)) 8 :=
    (hv (i / 8) (by omega)).symm.trans (hv' (i / 8) (by omega))
  have hbit := congrArg (·.getLsbD (i % 8)) hbyte
  simpa [BitVec.getLsbD_extractLsb', Nat.mod_lt, Nat.div_add_mod] using hbit

/-- The low bits of what a load returns are those of the value in memory. -/
theorem load_extractLsb'_of_holds {m : Memory} {a n : Nat} {v : Word} (hv : HoldsBytes m a n v) (hn : n ≤ 8) {k : Nat}
    (hk : k ≤ 8 * n) : (m.load a n).setWidth k = v.extractLsb' 0 k := by
  refine BitVec.eq_of_getLsbD_eq fun i hi => ?_
  simp [hi, (Memory.load_holds m n a hn).getLsbD_eq hv (show i < 8 * n by omega)]

/-! ## The word of a fetch (R124, R162) -/

theorem pickVersion_nil {α : Type} (cur : α) (k : Nat) : pickVersion cur [] k = cur := rfl

/-- Where no older version of the doubleword is cached there is no older word. -/
theorem staleWords_eq_nil {s : State} {a : Nat} (cur : InstrWord)
    (h : ∀ e ∈ s.codeHistory, e.1 ≠ doublewordOf a) : staleWords s a cur = [] := by
  refine List.filterMap_eq_nil_iff.2 fun e he => ?_
  simp [h e he]

/-- Where no older bytes are cached a fetch returns the bytes in memory. -/
theorem fetchedWord_of_no_older {s : State} {pa : Word} (hr : responder s.board pa.toNat 4 = .ram)
    (h : ∀ e ∈ s.codeHistory, e.1 ≠ doublewordOf pa.toNat) :
    fetchedWord s pa = (s.mem.load pa.toNat 4).setWidth 32 := by
  simp only [fetchedWord, hr, if_true, implicitRead_ram hr, staleWords_eq_nil _ h, pickVersion_nil]

/-- A step whose fetch finds no older bytes cached runs the four bytes in memory. -/
theorem step_runs_bytes {s : State} {tr : Translation} {v : Word} {i : Instr} (hi : interruptTaken s = none)
    (htr : translateVa s s.pc .fetch s.priv = .ok tr) (hacc : physAccessible s.board tr.pa 4 .fetch = true)
    (hr : responder s.board tr.pa.toNat 4 = .ram)
    (hold : ∀ h ∈ (applyUpdate s tr.update).codeHistory, h.1 ≠ doublewordOf tr.pa.toNat)
    (hv : HoldsBytes (applyUpdate s tr.update).mem tr.pa.toNat 4 v) (hd : decodeWord (v.extractLsb' 0 32) = .ok i) :
    step s = elapseResult (exec i (applyUpdate s tr.update)) := by
  have hword : fetchedWord (applyUpdate s tr.update) tr.pa = v.extractLsb' 0 32 :=
    (fetchedWord_of_no_older (by simpa using hr) hold).trans (load_extractLsb'_of_holds hv (by omega) (by omega))
  exact step_of_decoded hi (hword ▸ fetchWord_ok htr hacc) hd

/-- The update of a page-table entry adds at most the doubleword of that entry to a history (R154, R162). -/
theorem applyUpdate_codeHistory (s : State) (tr : Translation) :
    ∀ h ∈ (applyUpdate s tr.update).codeHistory,
      h ∈ s.codeHistory ∨ ∃ e, tr.update = some e ∧ h.1 = doublewordOf e.1.toNat := by
  intro h hh
  cases hu : tr.update with
  | none => exact .inl (by simpa [hu] using hh)
  | some e =>
    rw [hu, applyUpdate, (physWrite_histories s e.1 8 e.2).1] at hh
    split at hh
    · obtain rfl | hh := List.mem_cons.1 hh
      · exact .inr ⟨e, rfl, rfl⟩
      · exact .inl hh
    · exact .inl hh

/-- Settles O6: an untranslated pc translates to itself with no update, and at any pc that translates the fetch answers
the word at the physical address. -/
theorem stepRunsTheBytesAtThePc : Obligations.StepRunsTheBytesAtThePc := by
  refine ⟨fun s v i hi ht hacc hr hclean hv hd => ?_, ?_⟩
  · exact step_runs_bytes (tr := { pa := s.pc, update := none }) hi (translateVa_untranslated ht ..) hacc hr
      (by simp [hclean]) hv hd
  · rintro s u tr htr hacc rfl
    obtain ⟨hregs, hpc, hminstret, hsys, hlines⟩ := applyUpdate_frame s tr.update
    exact ⟨fetchWord_ok htr hacc, fun v i hi hr hold hv hd => step_runs_bytes hi htr hacc hr hold hv hd,
      applyUpdate_codeHistory s tr,
      fun hm => ⟨fun e he hr => applyUpdate_holds hm he hr, fun a ha => applyUpdate_byteAt hm tr ha⟩,
      hregs, hpc, hminstret, hsys, hlines⟩

/-! ## A fetch or a decoding that fails (R152, R153, R207) -/

/-- An answer of a walk whose exceptions are the page fault and the access fault of the access. -/
def FaultsAs (t : Access) (r : Except Exc Translation) : Prop :=
  ∀ e, r = .error e → e = pageFaultExc t ∨ e = accessFaultExc t

section
variable (t : Access)

theorem FaultsAs.pageFault : FaultsAs t (.error (pageFaultExc t)) := fun _ h => .inl (Except.error.inj h).symm
theorem FaultsAs.accessFault : FaultsAs t (.error (accessFaultExc t)) := fun _ h => .inr (Except.error.inj h).symm
theorem FaultsAs.ok (tr : Translation) : FaultsAs t (.ok tr) := nofun

theorem walkLeaf_faultsAs (s : State) (va : Word) (p : Priv) (i : Nat) (ea cur pte : Word) :
    FaultsAs t (walkLeaf s va t p i ea cur pte) := by
  unfold walkLeaf
  split_ifs
  · exact .pageFault t
  · exact .pageFault t
  · exact .ok t _
  · exact .accessFault t
  · exact .ok t _

theorem walkLevel_faultsAs (s : State) (va : Word) (p : Priv) (i : Nat) (a : Word)
    {next : Word → Except Exc Translation} (hnext : ∀ b, FaultsAs t (next b)) :
    FaultsAs t (walkLevel s va t p i a next) := by
  unfold walkLevel
  dsimp only
  split_ifs
  · exact .accessFault t
  · exact .pageFault t
  · exact .pageFault t
  · exact walkLeaf_faultsAs t s va p i _ _ _
  · exact hnext _

theorem walk_faultsAs (s : State) (va : Word) (p : Priv) (i : Nat) (a : Word) : FaultsAs t (walk s va t p i a) := by
  induction i generalizing a with
  | zero => exact walkLevel_faultsAs t s va p 0 a fun _ => .pageFault t
  | succ i ih => exact walkLevel_faultsAs t s va p (i + 1) a ih

theorem translateVa_faultsAs (s : State) (va : Word) (p : Priv) : FaultsAs t (translateVa s va t p) := by
  unfold translateVa
  split_ifs
  · exact .ok t _
  · exact .pageFault t
  · exact walk_faultsAs t s va p 2 _

end

theorem fetchWord_error {s : State} {va : Word} {e : Exc} (h : translateVa s va .fetch s.priv = .error e) :
    fetchWord s va = .error e := by
  simp [fetchWord, resolve, h]

theorem fetchWord_inaccessible {s : State} {va : Word} {tr : Translation}
    (h : translateVa s va .fetch s.priv = .ok tr) (hacc : physAccessible s.board tr.pa 4 .fetch = false) :
    fetchWord s va = .error .instrAccessFault := by
  simp [fetchWord, resolve, h, hacc, accessFaultExc]

/-- A word of no row does not decode: the word of an instruction is one of its row. -/
theorem decodeWord_of_no_row {w : InstrWord} (h : ∀ i : Instr, ¬i.rowMatches w) : ∃ d, decodeWord w = .error d := by
  cases hd : decodeWord w with
  | error d => exact ⟨d, rfl⟩
  | ok i =>
    obtain ⟨rfl, -⟩ := decodeWord_isWordOf hd
    exact absurd (rowMatches_encode i) (h i)

/-- Settles O7: the fetch fails with the translation's exception or an access fault, and a word of no row does not
decode; the state in which that word traps has the pc of `s`. -/
theorem failedFetchOrDecodeTraps : Obligations.FailedFetchOrDecodeTraps := by
  intro s hi
  refine ⟨fun e he => ⟨step_of_fetch_error hi (fetchWord_error he), ?_⟩,
    fun tr htr hacc => step_of_fetch_error hi (fetchWord_inaccessible htr hacc), fun s1 w hf hno => ?_⟩
  · obtain rfl | rfl := translateVa_faultsAs .fetch s s.pc s.priv e he
    · exact .inl rfl
    · exact .inr rfl
  · obtain ⟨d, hd⟩ := decodeWord_of_no_row hno
    obtain ⟨tr, -, -, rfl, -⟩ := fetchWord_cases hf
    have hpc : (applyUpdate s tr.update).pc = s.pc := State.applyUpdate_pc ..
    rw [step_of_decode_error hi hf hd, State.raiseIllegal, State.raise, hpc]

/-! ## Which interrupt is taken (R421, R422) -/

theorem mipValue_getLsbD_code (s : State) (i : Irq) : (csrRead s .mip).getLsbD i.code = pending s i := by
  simp only [csrRead, mipValue, BitVec.getLsbD_or, bitAt_getLsbD]
  cases i <;> simp [Irq.code]

theorem takeM_iff (s : State) (i : Irq) : takeM s i = true ↔ TakenInM s i := by
  have hmode : (decide (s.priv ≠ .M) || s.mstatus.mie) = true ↔
      s.priv ≠ .M ∨ (csrRead s .mstatus).getLsbD 3 = true := by
    rw [mstatus_mie, Bool.or_eq_true, decide_eq_true_iff]
  simp only [takeM, TakenInM, Bool.and_eq_true, hmode, mipValue_getLsbD_code, Bool.not_eq_true']
  exact ⟨fun ⟨⟨⟨hm, he⟩, hd⟩, hp⟩ => ⟨hp, he, hd, hm⟩, fun ⟨hp, he, hd, hm⟩ => ⟨⟨⟨hm, he⟩, hd⟩, hp⟩⟩

theorem takeS_iff (s : State) (i : Irq) : takeS s i = true ↔ TakenInS s i := by
  have hmode : (decide (s.priv = .U) || (decide (s.priv = .S) && s.mstatus.sie)) = true ↔
      s.priv = .U ∨ (s.priv = .S ∧ (csrRead s .mstatus).getLsbD 1 = true) := by
    rw [mstatus_sie, Bool.or_eq_true, Bool.and_eq_true, decide_eq_true_iff, decide_eq_true_iff]
  simp only [takeS, TakenInS, Bool.and_eq_true, hmode, mipValue_getLsbD_code]
  exact ⟨fun ⟨⟨⟨hm, he⟩, hd⟩, hp⟩ => ⟨hp, he, hd, hm⟩, fun ⟨hp, he, hd, hm⟩ => ⟨⟨⟨hm, he⟩, hd⟩, hp⟩⟩

theorem mem_irqPriority (i : Irq) : i ∈ irqPriority := by
  cases i <;> decide

theorem irqPriority_sorted : irqPriority.Pairwise (irqRank · ≤ irqRank ·) := by
  decide

theorem irqPriority_find?_eq_none {p : Irq → Bool} (h : irqPriority.find? p = none) (j : Irq) : ¬p j = true :=
  List.find?_eq_none.1 h j (mem_irqPriority j)

/-- The first interrupt of the list that a condition holds of has the least rank of those it holds of. -/
theorem irqPriority_find?_eq_some {p : Irq → Bool} {i : Irq} (h : irqPriority.find? p = some i) :
    p i = true ∧ ∀ j, p j = true → irqRank i ≤ irqRank j := by
  obtain ⟨hi, before, after, hlist, hbefore⟩ := List.find?_eq_some_iff_append.1 h
  refine ⟨hi, fun j hj => ?_⟩
  have hsorted := irqPriority_sorted
  have hmem := mem_irqPriority j
  rw [hlist] at hsorted hmem
  obtain ⟨-, htail, -⟩ := List.pairwise_append.1 hsorted
  obtain hj' | hj' := List.mem_append.1 hmem
  · exact absurd hj (by simpa using hbefore j hj')
  · obtain rfl | hj' := List.mem_cons.1 hj'
    · exact Nat.le_refl _
    · exact (List.pairwise_cons.1 htail).1 j hj'

/-- Settles O9: the conditions are those of R421 on the CSRs as read, and the first of the list of R422 is taken. -/
theorem interruptChoiceFollowsConditionAndOrder : Obligations.InterruptChoiceFollowsConditionAndOrder := by
  intro s
  simp only [← takeM_iff, ← takeS_iff]
  unfold interruptTaken
  cases hM : irqPriority.find? (takeM s) with
  | none =>
    exact ⟨fun hS j => ⟨irqPriority_find?_eq_none hM j, irqPriority_find?_eq_none hS j⟩, fun i hS =>
      let ⟨hi, hleast⟩ := irqPriority_find?_eq_some hS
      .inr ⟨hi, irqPriority_find?_eq_none hM, hleast⟩⟩
  | some k =>
    refine ⟨nofun, fun i hi => ?_⟩
    obtain rfl : k = i := Option.some.inj hi
    exact .inl (irqPriority_find?_eq_some hM)

/-! ## Reset (R470) and the registers (R20, R21) -/

/-- No interrupt is enabled at reset (D6). -/
theorem interruptTaken_resetOn (b : Board) : interruptTaken (State.resetOn b) = none := by
  have hoff (i : Irq) : enabled (State.resetOn b) i = false := by
    simp [enabled, State.mieValue, State.resetOn]
  simp [interruptTaken, irqPriority, takeM, takeS, hoff]

/-- Settles O13: each part is read off the state after reset. -/
theorem resetLeavesMachineModeAtTheVector : Obligations.ResetLeavesMachineModeAtTheVector := by
  intro b
  refine ⟨rfl, rfl, mstatus_mie _, mstatus_mprv _, ?_, ?_, ?_, rfl, rfl, interruptTaken_resetOn b⟩
  · change (State.resetOn Board.default).mstatus.value.extractLsb' 32 4 = 0xF#4
    decide
  · exact BitVec.zero_and
  · exact BitVec.zero_and

/-- Settles O14: the write of a register as R21 has it. -/
theorem registerZeroIsConstant : Obligations.RegisterZeroIsConstant := by
  intro s r v
  obtain ⟨hsame, hother⟩ := State.setReg_regIs s r v
  exact ⟨State.reg_x0 s, State.setReg_zero s v, fun hr => hsame.trans (if_neg hr), hother⟩

end Sys2Proof.Machine
end

-- ==== Proofs of the integer and control-transfer instructions (spec/40 to spec/44) ====
section
/-! PROOFS. The instructions that write one register or go to a target (spec/40_rv64i_integer.md,
spec/41_rv64i_control.md, spec/43_rv64i_word.md, spec/44_rv64i_fence.md). Each is one of the shared shapes, whose laws
are `writeAndRetire_writes`, `jumpTo_aligned`, `jumpTo_misaligned`, `branchTo_taken`, `branchTo_not_taken` and
`branchTo_misaligned`; what is left is that the model computes the value the statement writes in its own operators. -/

namespace Sys2Proof.Machine

/-! ## The model's operators -/

theorem boolWord_lessSigned (a b : Word) : boolWord (lessSigned a b) = if a.slt b then 1#64 else 0#64 := rfl
theorem boolWord_lessUnsigned (a b : Word) : boolWord (lessUnsigned a b) = if a.ult b then 1#64 else 0#64 := rfl

theorem shamt6_eq (v : Word) : shamt6 v = (v &&& 63#64).toNat := by
  rw [shamt6, BitVec.toNat_and]
  exact (Nat.and_two_pow_sub_one_eq_mod v.toNat 6).symm

theorem shamt5_eq (v : Word) : shamt5 v = (v &&& 31#64).toNat := by
  rw [shamt5, BitVec.toNat_and]
  exact (Nat.and_two_pow_sub_one_eq_mod v.toNat 5).symm

theorem low32_eq (v : Word) : low32 v = v.extractLsb' 0 32 := by
  ext i hi
  simp [low32]

/-! ## Register results -/

/-- Settles O15. -/
theorem upperImmediatesComplete : Obligations.UpperImmediatesComplete :=
  fun s rd _ => ⟨writeAndRetire_writes s rd _, writeAndRetire_writes s rd _⟩

/-- Settles O16: the comparisons are those of `BitVec`. -/
theorem immediateArithmeticCompletes : Obligations.ImmediateArithmeticCompletes := by
  intro s rd rs1 imm
  rw [← boolWord_lessSigned, ← boolWord_lessUnsigned]
  exact ⟨writeAndRetire_writes s rd _, writeAndRetire_writes s rd _, writeAndRetire_writes s rd _,
    writeAndRetire_writes s rd _, writeAndRetire_writes s rd _, writeAndRetire_writes s rd _⟩

/-- Settles O17: the low 6 bits of the register are its value modulo 64. -/
theorem shiftsComplete : Obligations.ShiftsComplete := by
  intro s rd rs1 rs2 shamt
  rw [BitVec.shiftLeft_eq', BitVec.ushiftRight_eq', BitVec.sshiftRight_eq', BitVec.shiftLeft_eq',
    BitVec.ushiftRight_eq', BitVec.sshiftRight_eq', ← shamt6_eq]
  exact ⟨writeAndRetire_writes s rd _, writeAndRetire_writes s rd _, writeAndRetire_writes s rd _,
    writeAndRetire_writes s rd _, writeAndRetire_writes s rd _, writeAndRetire_writes s rd _⟩

/-- Settles O18. -/
theorem registerArithmeticCompletes : Obligations.RegisterArithmeticCompletes := by
  intro s rd rs1 rs2
  rw [← boolWord_lessSigned, ← boolWord_lessUnsigned]
  exact ⟨writeAndRetire_writes s rd _, writeAndRetire_writes s rd _, writeAndRetire_writes s rd _,
    writeAndRetire_writes s rd _, writeAndRetire_writes s rd _, writeAndRetire_writes s rd _,
    writeAndRetire_writes s rd _⟩

/-- Settles O19. -/
theorem wordImmediatesComplete : Obligations.WordImmediatesComplete := by
  intro s rd rs1 imm shamt
  rw [BitVec.shiftLeft_eq', BitVec.ushiftRight_eq', BitVec.sshiftRight_eq', ← low32_eq, ← low32_eq]
  exact ⟨writeAndRetire_writes s rd _, writeAndRetire_writes s rd _, writeAndRetire_writes s rd _,
    writeAndRetire_writes s rd _⟩

/-- Settles O20: the low 5 bits of the register are its value modulo 32. -/
theorem wordRegistersComplete : Obligations.WordRegistersComplete := by
  intro s rd rs1 rs2
  rw [BitVec.shiftLeft_eq', BitVec.ushiftRight_eq', BitVec.sshiftRight_eq', ← shamt5_eq, ← low32_eq, ← low32_eq,
    ← low32_eq]
  exact ⟨writeAndRetire_writes s rd _, writeAndRetire_writes s rd _, writeAndRetire_writes s rd _,
    writeAndRetire_writes s rd _, writeAndRetire_writes s rd _⟩

/-! ## Jumps and branches -/

/-- Settles O21. -/
theorem jumpsComplete : Obligations.JumpsComplete :=
  fun _ _ _ _ _ => ⟨jumpTo_aligned, jumpTo_aligned⟩

/-- `sle` is the negation of the model's comparison with the operands exchanged (R267). -/
theorem sle_eq_not_lessSigned {n : Nat} (a b : BitVec n) : b.sle a = !lessSigned a b := by
  rw [BitVec.sle, lessSigned, ← decide_not]
  exact decide_eq_decide.2 Int.not_lt.symm

theorem ule_eq_not_lessUnsigned {n : Nat} (a b : BitVec n) : b.ule a = !lessUnsigned a b := by
  rw [BitVec.ule, lessUnsigned, ← decide_not]
  exact decide_eq_decide.2 Nat.not_lt.symm

/-- A branch completes at its aligned target or in line. -/
theorem branchTo_goes (s : State) (off : BitVec 13) (taken : Bool) :
    (taken = true → (s.pc + off.signExtend 64).toNat % 4 = 0 →
      Goes s (branchTo s taken off) (s.pc + off.signExtend 64)) ∧
    (taken = false → Goes s (branchTo s taken off) (s.pc + 4#64)) := by
  refine ⟨?_, ?_⟩
  · rintro rfl htarget
    exact branchTo_taken htarget
  · rintro rfl
    exact branchTo_not_taken s off

/-- Settles O22: each branch is `branchTo` on its condition. -/
theorem branchesComplete : Obligations.BranchesComplete := by
  intro s rs1 rs2 off i taken h
  suffices hexec : exec i s = branchTo s taken off by
    rw [hexec]
    exact branchTo_goes s off taken
  obtain ⟨rfl, rfl⟩ | ⟨rfl, rfl⟩ | ⟨rfl, rfl⟩ | ⟨rfl, rfl⟩ | ⟨rfl, rfl⟩ | ⟨rfl, rfl⟩ := h
  · rfl
  · rfl
  · rfl
  · rfl
  · rw [sle_eq_not_lessSigned]; rfl
  · rw [ule_eq_not_lessUnsigned]; rfl

/-- A branch whose condition holds traps on a misaligned target. -/
theorem branchTo_traps {s : State} {off : BitVec 13} {taken : Bool}
    (htarget : (s.pc + off.signExtend 64).toNat % 4 ≠ 0) (ht : taken = true) :
    Traps s (branchTo s taken off) .instrMisaligned s.pc (s.pc + off.signExtend 64) :=
  ht ▸ branchTo_misaligned htarget

/-- Settles O23. -/
theorem misalignedTargetsTrap : Obligations.MisalignedTargetsTrap := by
  intro s rd rs1 rs2 off joff imm
  refine ⟨jumpTo_misaligned, jumpTo_misaligned, fun htarget => ⟨?_, ?_, ?_, ?_, ?_, ?_⟩⟩
  · exact fun h => branchTo_traps htarget (decide_eq_true h)
  · exact fun h => branchTo_traps htarget (decide_eq_true h)
  · exact fun h => branchTo_traps htarget h
  · exact fun h => branchTo_traps htarget h
  · exact fun h => branchTo_traps htarget (congrArg not h)
  · exact fun h => branchTo_traps htarget (congrArg not h)

/-! ## Fences -/

/-- Settles O31: FENCE is a completion alone, FENCE.I also empties the history that stale fetches draw from. -/
theorem fencesComplete : Obligations.FencesComplete := by
  intro s fm pred succ imm rd rs1
  obtain ⟨hregs, hcounted, hframe⟩ := retire_frame s s.nextPc
  obtain ⟨hregs', hcounted', hsys, hplatform, ⟨-, hpte, hroot⟩, hmem⟩ :=
    retire_frame { s with codeHistory := [] } s.nextPc
  exact ⟨⟨_, rfl, hregs, rfl, hcounted, hframe⟩,
    _, rfl, hregs', rfl, hcounted', hsys, hplatform, hmem, rfl, hpte, hroot⟩

end Sys2Proof.Machine
end

-- ==== Proofs of loads, stores and atomics (spec/42_rv64i_loadstore.md, spec/45_rv64a_atomic.md) ====
section
/-! PROOFS. The 33 instructions that access data. Each is `loadTo`, `storeFrom`, `storeConditional` or `amoTo`, whose
laws say what an access that passes every check does and that one that fails a check traps; what is left is that the
model's extensions and functions are those the statements write. Then what a stored doubleword loads back as, the
registers of the devices (spec/10_state.md R86), and the end of the physical space (R128). -/

namespace Sys2Proof.Machine

/-! ## The model's extensions and functions -/

theorem zeroExtend_double : Width.zeroExtend .double = fun v => v := by
  funext v
  exact (BitVec.setWidth_eq _).trans (BitVec.setWidth_eq v)

section
variable {n : Nat}

theorem maxSigned_eq (a b : BitVec n) : maxSigned a b = if b.sle a then a else b := by
  rw [maxSigned, sle_eq_not_lessSigned]
  cases lessSigned a b <;> rfl

theorem minSigned_eq (a b : BitVec n) : minSigned a b = if a.sle b then a else b := by
  rw [minSigned, sle_eq_not_lessSigned]
  cases lessSigned b a <;> rfl

theorem maxUnsigned_eq (a b : BitVec n) : maxUnsigned a b = if b.ule a then a else b := by
  rw [maxUnsigned, ule_eq_not_lessUnsigned]
  cases lessUnsigned a b <;> rfl

theorem minUnsigned_eq (a b : BitVec n) : minUnsigned a b = if a.ule b then a else b := by
  rw [minUnsigned, ule_eq_not_lessUnsigned]
  cases lessUnsigned b a <;> rfl

end

/-! ## Accesses that pass every check -/

/-- A doubleword load writes the value as read. -/
theorem loadTo_loads_double {s : State} (hm : s.mem.wf = true) {rd : Reg} {va : Word} {tr : Translation}
    (h : DataOk s va .load 8 tr) :
    Loads s (loadTo s rd va .double (Width.zeroExtend .double)) rd tr 8 (fun v => v) :=
  zeroExtend_double ▸ loadTo_loads hm (w := .double) h

/-- Settles O24. -/
theorem loadsComplete : Obligations.LoadsComplete := by
  intro s rd rs1 imm tr hm
  exact ⟨fun h => ⟨loadTo_loads hm (w := .byte) h, loadTo_loads hm (w := .byte) h⟩,
    fun h => ⟨loadTo_loads hm (w := .half) h, loadTo_loads hm (w := .half) h⟩,
    fun h => ⟨loadTo_loads hm (w := .word) h, loadTo_loads hm (w := .word) h⟩, loadTo_loads_double hm⟩

/-- Settles O25. -/
theorem storesComplete : Obligations.StoresComplete := by
  intro s rs1 rs2 imm tr hm
  exact ⟨storeFrom_stores hm (w := .byte), storeFrom_stores hm (w := .half), storeFrom_stores hm (w := .word),
    storeFrom_stores hm (w := .double)⟩

/-- Settles O28: LR is a load and SC a store that reports success. -/
theorem loadReservedAndStoreConditionalComplete : Obligations.LoadReservedAndStoreConditionalComplete := by
  intro s aq rl rd rs1 rs2 tr hm
  exact ⟨loadTo_loads hm (w := .word), loadTo_loads_double hm, storeConditional_stores hm (w := .word),
    storeConditional_stores hm (w := .double)⟩

/-- An AMO.W: the function of the low words is stored, and the old word is sign-extended. -/
theorem amoTo_word {s : State} (hm : s.mem.wf = true) {rd : Reg} {va : Word} {tr : Translation}
    (h : DataOk s va .store 4 tr) (f : BitVec 32 → BitVec 32 → BitVec 32) (src : Word) :
    Updates s (amoTo s rd va .word (onWords f src) (Width.signExtend .word)) rd tr 4 sextWord (lowWords f src) :=
  amoTo_updates hm (w := .word) h

/-- Settles O29. -/
theorem atomicWordsComplete : Obligations.AtomicWordsComplete := by
  intro s aq rl rd rs1 rs2 tr hm h
  have hamo := amoTo_word hm (rd := rd) h (src := s.reg rs2)
  simp only [← maxSigned_eq, ← minSigned_eq, ← maxUnsigned_eq, ← minUnsigned_eq]
  exact ⟨hamo _, hamo _, hamo _, hamo _, hamo _, hamo _, hamo _, hamo _, hamo _⟩

/-- An AMO.D: the function of the old doubleword is stored, and `x[rd]` is the old doubleword. -/
theorem amoTo_double {s : State} (hm : s.mem.wf = true) {rd : Reg} {va : Word} {tr : Translation}
    (h : DataOk s va .store 8 tr) (f : Word → Word) :
    Updates s (amoTo s rd va .double f (Width.zeroExtend .double)) rd tr 8 (fun v => v) f :=
  zeroExtend_double ▸ amoTo_updates hm (w := .double) h

/-- Settles O30. -/
theorem atomicDoublewordsComplete : Obligations.AtomicDoublewordsComplete := by
  intro s aq rl rd rs1 rs2 tr hm h
  have hamo := amoTo_double hm (rd := rd) h
  simp only [← maxSigned_eq, ← minSigned_eq, ← maxUnsigned_eq, ← minUnsigned_eq]
  exact ⟨hamo _, hamo _, hamo _, hamo _, hamo _, hamo _, hamo _, hamo _, hamo _⟩

/-! ## Accesses that fail a check (R125, R126, R128) -/

/-- A data access is a load or a store of a width, and where its checks raise an exception the instruction traps. -/
theorem exec_traps_of_dataAccess {s : State} {i : Instr} {t : Access} {va : Word} {n : Nat}
    (h : dataAccess s i = some (t, va, n)) :
    (t = .load ∨ t = .store) ∧ ∃ w : Width, n = w.bytes ∧
      ∀ e, resolveData s va t w = .error e → Traps s (exec i s) e s.pc va := by
  cases i <;> cases h
  case lb | lbu => exact ⟨.inl rfl, .byte, rfl, fun _ => loadTo_error⟩
  case lh | lhu => exact ⟨.inl rfl, .half, rfl, fun _ => loadTo_error⟩
  case lw | lwu | lrW => exact ⟨.inl rfl, .word, rfl, fun _ => loadTo_error⟩
  case ld | lrD => exact ⟨.inl rfl, .double, rfl, fun _ => loadTo_error⟩
  case sb => exact ⟨.inr rfl, .byte, rfl, fun _ => storeFrom_error⟩
  case sh => exact ⟨.inr rfl, .half, rfl, fun _ => storeFrom_error⟩
  case sw => exact ⟨.inr rfl, .word, rfl, fun _ => storeFrom_error⟩
  case sd => exact ⟨.inr rfl, .double, rfl, fun _ => storeFrom_error⟩
  case scW => exact ⟨.inr rfl, .word, rfl, fun _ => storeConditional_error⟩
  case scD => exact ⟨.inr rfl, .double, rfl, fun _ => storeConditional_error⟩
  case amoswapW | amoaddW | amoandW | amoorW | amoxorW | amomaxW | amominW | amomaxuW | amominuW =>
    exact ⟨.inr rfl, .word, rfl, fun _ => amoTo_error⟩
  case amoswapD | amoaddD | amoandD | amoorD | amoxorD | amomaxD | amominD | amomaxuD | amominuD =>
    exact ⟨.inr rfl, .double, rfl, fun _ => amoTo_error⟩

/-- Settles O27: the checks in their order, each with its exception. -/
theorem failedDataAccessTraps : Obligations.FailedDataAccessTraps := by
  intro s i t va n h
  obtain ⟨ht, w, rfl, htraps⟩ := exec_traps_of_dataAccess h
  have hmis : misalignedExc t = if t = .load then .loadMisaligned else .storeMisaligned := by
    obtain rfl | rfl := ht <;> rfl
  have hacc : accessFaultExc t = if t = .load then .loadAccessFault else .storeAccessFault := by
    obtain rfl | rfl := ht <;> rfl
  exact ⟨fun hne => htraps _ (hmis ▸ resolveData_misaligned hne),
    fun halign e he => htraps e (resolveData_error halign he),
    fun halign tr htr hno => htraps _ (hacc ▸ resolveData_inaccessible halign htr hno)⟩

/-! ## A stored doubleword loads back (R122, R160) -/

/-- An untranslated access that is aligned and accessible passes every check, at the address itself. -/
theorem dataOk_untranslated {s : State} {va : Word} {t : Access} {n : Nat} (hu : translated s s.dataPriv = false)
    (halign : va.toNat % n = 0) (hacc : physAccessible s.board va n t = true) :
    DataOk s va t n { pa := va, update := none } :=
  ⟨halign, translateVa_untranslated hu va t, hacc⟩

/-- A load that sets no A bit completes in the state itself. -/
theorem loadTo_ok_no_update {s : State} {rd : Reg} {va pa : Word} {w : Width} {ext : Word → Word}
    (h : DataOk s va .load w.bytes { pa := pa, update := none }) :
    loadTo s rd va w ext = s.writeAndRetire rd (ext (physRead s pa w.bytes (.data .load))) :=
  loadTo_ok h

/-- A store that sets no A or D bit is the write at the physical address. -/
theorem storeFrom_ok_no_update {s : State} {va pa : Word} {w : Width} {v : Word}
    (h : DataOk s va .store w.bytes { pa := pa, update := none }) :
    storeFrom s va w v = .next ((physWrite s pa w.bytes v).retire s.nextPc) :=
  storeFrom_ok h

/-- What an untranslated load of bytes in memory writes. -/
theorem loadTo_untranslated {s : State} {rd : Reg} {va : Word} {w : Width} {ext : Word → Word} (hrd : rd ≠ 0)
    (hu : translated s s.dataPriv = false) (halign : va.toNat % w.bytes = 0)
    (hacc : physAccessible s.board va w.bytes .load = true) (hr : responder s.board va.toNat w.bytes = .ram) :
    ∃ u, loadTo s rd va w ext = .next u ∧ u.reg rd = ext (s.mem.load va.toNat w.bytes) := by
  rw [loadTo_ok_no_update (dataOk_untranslated hu halign hacc), physRead_ram hr]
  obtain ⟨t, ht, ⟨hreg, -⟩, -⟩ := writeAndRetire_writes s rd (ext (s.mem.load va.toNat w.bytes))
  exact ⟨t, ht, hreg.trans (if_neg hrd)⟩

/-- A byte of a value in memory is held at its own address. -/
theorem HoldsBytes.byte {m : Memory} {a n : Nat} {v : Word} (h : HoldsBytes m a n v) {k : Nat} (hk : k < n) :
    HoldsBytes m (a + k) 1 ((v.extractLsb' (8 * k) 8).setWidth 64) := by
  intro j hj
  obtain rfl : j = 0 := by omega
  rw [Nat.add_zero, h k hk]
  ext b hb
  simp [BitVec.getElem_extractLsb', BitVec.getLsbD_eq_getElem, hb, show b < 64 by omega]

/-- Settles O26: the store leaves the bytes of the value at its address, and the loads read them there. -/
theorem storedDoublewordLoadsBack : Obligations.StoredDoublewordLoadsBack := by
  intro s t rd rs1 rs2 imm immk k hm hu hrd hk halign hka hstore hload hloadk hram hramk hx
  generalize hva : s.reg rs1 + imm.signExtend 64 = va at *
  generalize hvk : s.reg rs1 + immk.signExtend 64 = vk at *
  have haddr : vk.toNat = va.toNat + k := by
    rw [hka, BitVec.toNat_add, BitVec.toNat_ofNat]
    omega
  have ht : t = (physWrite s va 8 (s.reg rs2)).retire s.nextPc := by
    have hok := storeFrom_ok_no_update (w := .double) (v := s.reg rs2) (dataOk_untranslated hu halign hstore)
    exact Host.Outcome.next.inj (hx.symm.trans ((congrArg (storeFrom s · .double (s.reg rs2)) hva).trans hok))
  have hreg (q : Reg) : t.reg q = s.reg q := by
    obtain ⟨hregs, -⟩ := physWrite_frame s va 8 (s.reg rs2)
    rw [ht]
    exact hregs q
  have hut : translated t t.dataPriv = false := by rw [ht]; exact hu
  have hboard : t.board = s.board := by rw [ht]; rfl
  have hmem : HoldsBytes t.mem va.toNat 8 (s.reg rs2) := by
    have hst := Memory.store_holds hm 8 va.toNat (s.reg rs2)
    rwa [← (physWrite_ram hram).1, ← State.retire_mem _ s.nextPc, ← ht] at hst
  rw [← hboard] at hload hloadk hram hramk
  refine ⟨?_, ?_⟩
  · obtain ⟨u, hu', hval⟩ :=
      loadTo_untranslated (w := .double) (ext := Width.zeroExtend .double) hrd hut halign hload hram
    refine ⟨u, ?_, ?_⟩
    · rw [← hu', ← hva, ← hreg rs1]; rfl
    · rw [hval, zeroExtend_double]
      exact BitVec.eq_of_getLsbD_eq fun b hb => (Memory.load_holds _ _ _ (by decide)).getLsbD_eq hmem hb
  · obtain ⟨u, hu', hval⟩ :=
      loadTo_untranslated (w := .byte) (ext := Width.zeroExtend .byte) hrd hut (Nat.mod_one _) hloadk hramk
    refine ⟨u, ?_, ?_⟩
    · rw [← hu', ← hvk, ← hreg rs1]; rfl
    · have hbyte : HoldsBytes t.mem vk.toNat 1 (((s.reg rs2).extractLsb' (8 * k) 8).setWidth 64) :=
        haddr ▸ hmem.byte hk
      have hlow := load_extractLsb'_of_holds hbyte (by decide) (k := 8) (by decide)
      rw [hval]
      refine (congrArg (BitVec.setWidth 64) hlow).trans ?_
      ext b hb
      simp [BitVec.getElem_setWidth, hb]

/-! ## The end of the physical space (R128) -/

theorem physAccessible_above {b : Board} {pa : Word} {n : Nat} (h : 2 ^ 56 < pa.toNat + n) (t : Access) :
    physAccessible b pa n t = false := by
  have hno : ¬pa.toNat + n ≤ 2 ^ 56 := Nat.not_le.2 h
  simp only [physAccessible, hno, decide_false, Bool.false_and]

/-- Settles O59. -/
theorem noPhysicalAddressAboveTheSpace : Obligations.NoPhysicalAddressAboveTheSpace := by
  intro s va n t habove
  refine ⟨physAccessible_above habove t, ?_⟩
  rintro rd rs1 rs2 imm rfl rfl halign hu
  exact ⟨loadTo_error (resolveData_inaccessible (w := .double) halign (translateVa_untranslated hu _ _)
      (physAccessible_above habove _)),
    storeFrom_error (resolveData_inaccessible (w := .double) halign (translateVa_untranslated hu _ _)
      (physAccessible_above habove _))⟩

/-! ## The registers of the devices (R86, R457) -/

theorem responder_mtime (b : Board) : responder b b.mtimeAddr 8 = .mtime := by
  simp [responder]

theorem responder_mtimecmp {b : Board} (h : b.wellFormed = true) : responder b b.mtimecmpAddr 8 = .mtimecmp := by
  have hne : b.mtimecmpAddr ≠ b.mtimeAddr := by
    simp only [Board.wellFormed, Bool.and_eq_true, decide_eq_true_eq] at h
    omega
  simp [responder, hne]

theorem responder_msip (b : Board) : responder b b.msipAddr 4 = .msip := by
  simp [responder]

theorem msipBit_lt {b : Board} (h : b.wellFormed = true) : b.msipBit < 32 := by
  simp only [Board.wellFormed, Bool.and_eq_true, decide_eq_true_eq] at h
  omega

/-- The mask of a width of 4 keeps the low 32 bits. -/
theorem truncBytes_four_getLsbD (v : Word) {i : Nat} (hi : i < 32) : (truncBytes v 4).getLsbD i = v.getLsbD i := by
  have hmask : (0xFFFFFFFF#64).getLsbD i = true := by
    interval_cases i <;> rfl
  rw [truncBytes, BitVec.getLsbD_and]
  exact (congrArg _ hmask).trans (Bool.and_true _)

/-- What the devices answer to an access of their own shape. -/
theorem physRead_msip {s : State} {pa : Word} (h : responder s.board pa.toNat 4 = .msip) (hbit : s.board.msipBit < 32)
    (site : Site) : (physRead s pa 4 site).getLsbD s.board.msipBit = s.msip := by
  simp only [physRead, h]
  rw [truncBytes_four_getLsbD _ hbit]
  cases s.msip <;> simp [show s.board.msipBit < 64 by omega]

/-- The write of a device register of its own shape changes that register alone. -/
theorem physWrite_mtime {s : State} {pa : Word} (h : responder s.board pa.toNat 8 = .mtime) (v : Word) :
    physWrite s pa 8 v = { s with mtime := v } := by
  simp [physWrite, h]

theorem physWrite_mtimecmp {s : State} {pa : Word} (h : responder s.board pa.toNat 8 = .mtimecmp) (v : Word) :
    physWrite s pa 8 v = { s with mtimecmp := v } := by
  simp [physWrite, h]

theorem physWrite_msip {s : State} {pa : Word} (h : responder s.board pa.toNat 4 = .msip) (v : Word) :
    physWrite s pa 4 v = { s with msip := v.getLsbD s.board.msipBit } := by
  simp [physWrite, h]

/-- A load of a device register writes what the device answers and changes nothing else. -/
theorem loadTo_device {s : State} {rd : Reg} {va pa : Word} {w : Width} {ext : Word → Word}
    (h : DataOk s va .load w.bytes { pa := pa, update := none }) :
    Writes s (loadTo s rd va w ext) rd (ext (physRead s pa w.bytes (.data .load))) :=
  loadTo_ok_no_update h ▸ writeAndRetire_writes ..

/-- A store that a device answers completes with the registers that the device's write leaves. -/
theorem storeFrom_device {s : State} {va pa : Word} {w : Width} {v mtime mtimecmp : Word} {msip : Bool}
    (h : DataOk s va .store w.bytes { pa := pa, update := none })
    (hw : physWrite s pa w.bytes v = { s with mtime := mtime, mtimecmp := mtimecmp, msip := msip }) :
    StoresToDevice s (storeFrom s va w v) mtime mtimecmp msip := by
  rw [storeFrom_ok_no_update h, hw]
  exact ⟨_, rfl, rfl, rfl, rfl, State.reg_congr rfl, rfl, rfl, SameSystem.refl s, ⟨rfl, rfl, rfl, rfl⟩, rfl,
    SameHidden.refl s, fun _ => rfl⟩

/-- Settles O58: an access of a register's own shape at its address is answered by the register. -/
theorem deviceRegistersAnswer : Obligations.DeviceRegistersAnswer := by
  intro s v pa site hwf
  have hmtime (h : pa.toNat = s.board.mtimeAddr) : responder s.board pa.toNat 8 = .mtime :=
    h ▸ responder_mtime s.board
  have hmtimecmp (h : pa.toNat = s.board.mtimecmpAddr) : responder s.board pa.toNat 8 = .mtimecmp :=
    h ▸ responder_mtimecmp hwf
  have hmsip (h : pa.toNat = s.board.msipAddr) : responder s.board pa.toNat 4 = .msip := h ▸ responder_msip s.board
  have hbit := msipBit_lt hwf
  refine ⟨fun h => ?_, fun h => ?_, fun h => ?_, fun rd rs1 rs2 imm va hva => ?_⟩
  · rw [physWrite_mtime (hmtime h)]
    exact ⟨by simp [physRead, hmtime h], rfl, rfl, rfl⟩
  · rw [physWrite_mtimecmp (hmtimecmp h)]
    exact ⟨by simp [physRead, hmtimecmp h], rfl, rfl, mipValue_getLsbD_code _ .mti⟩
  · rw [physWrite_msip (hmsip h)]
    exact ⟨physRead_msip (hmsip h) hbit site, mipValue_getLsbD_code _ .msi, rfl⟩
  subst hva
  refine ⟨fun h => ⟨fun hok => ?_, fun hok => ?_⟩, fun h => ⟨fun hok => ?_, fun hok => ?_⟩,
    fun h => ⟨fun hok => ?_, fun hok => ?_⟩⟩
  · have hread : physRead s pa 8 (.data .load) = s.mtime := by simp [physRead, hmtime h]
    have hload := loadTo_device (w := .double) (rd := rd) (ext := Width.zeroExtend .double) hok
    rwa [zeroExtend_double, show Width.bytes .double = 8 from rfl, hread] at hload
  · exact storeFrom_device (w := .double) hok (physWrite_mtime (hmtime h) _)
  · have hread : physRead s pa 8 (.data .load) = s.mtimecmp := by simp [physRead, hmtimecmp h]
    have hload := loadTo_device (w := .double) (rd := rd) (ext := Width.zeroExtend .double) hok
    rwa [zeroExtend_double, show Width.bytes .double = 8 from rfl, hread] at hload
  · exact storeFrom_device (w := .double) hok (physWrite_mtimecmp (hmtimecmp h) _)
  · refine ⟨(physRead s pa 4 (.data .load)).setWidth 32, ?_, loadTo_device (w := .word) hok,
      loadTo_device (w := .word) hok⟩
    rw [BitVec.getLsbD_setWidth, physRead_msip (hmsip h) hbit, decide_eq_true hbit, Bool.true_and]
  · exact storeFrom_device (w := .word) hok (physWrite_msip (hmsip h) _)

end Sys2Proof.Machine
end

-- ==== Proofs of stale fetches and stale translations (spec/20_memory.md R154, R162) ====
section
/-! PROOFS. What a fetch and a walk may draw from: a history grows by the doubleword that a write of memory overwrites
and by nothing else, so that it holds only values that memory held; FENCE.I and SFENCE.VMA alone empty one. Both
histories grow alike, so the laws are about a history before and after a write. -/

namespace Sys2Proof.Machine

/-! ## A history before and after a write of memory -/

theorem HeldBefore.refl (s : State) (old : List (Nat × Word)) : HeldBefore s old old := fun _ h => .inl h

theorem doublewordOf_mod (a : Nat) : doublewordOf a % 8 = 0 := Nat.mul_mod_left _ _

/-- A write adds at most the doubleword it overwrites. -/
theorem heldBefore_of_write {s : State} {old new : List (Nat × Word)} {a : Nat} {c : Prop} [Decidable c]
    (h : new = if c then overwritten s.mem a :: old else old) : HeldBefore s old new ∧ old ⊆ new := by
  subst h
  split
  · refine ⟨fun e he => ?_, List.subset_cons_self ..⟩
    obtain rfl | he := List.mem_cons.1 he
    · exact .inr ⟨doublewordOf_mod a, rfl⟩
    · exact .inl he
  · exact ⟨.refl s old, List.Subset.refl old⟩

/-- The history of either kind that the update of a page-table entry leaves. -/
theorem applyUpdate_histories (s : State) (u : Option (Word × Word)) :
    (HeldBefore s s.codeHistory (applyUpdate s u).codeHistory ∧ s.codeHistory ⊆ (applyUpdate s u).codeHistory) ∧
    (HeldBefore s s.pteHistory (applyUpdate s u).pteHistory ∧ s.pteHistory ⊆ (applyUpdate s u).pteHistory) := by
  cases u with
  | none => exact ⟨⟨.refl s _, List.Subset.refl _⟩, .refl s _, List.Subset.refl _⟩
  | some u =>
    obtain ⟨hcode, hpte⟩ := physWrite_histories s u.1 8 u.2
    exact ⟨heldBefore_of_write hcode, heldBefore_of_write hpte⟩

theorem HeldDuring.refl (s : State) (i : Instr) (old : List (Nat × Word)) : HeldDuring s i old old := fun _ h => .inl h

theorem HeldDuring.nil (s : State) (i : Instr) (old : List (Nat × Word)) : HeldDuring s i old [] := nofun

theorem HeldBefore.during {s : State} {old new : List (Nat × Word)} (h : HeldBefore s old new) (i : Instr) :
    HeldDuring s i old new := fun e he =>
  (h e he).imp_right fun ⟨haligned, hval⟩ => ⟨haligned, .inl hval⟩

/-- A store through a translation: first the entry's update, then the store, each adds what it overwrites. -/
theorem HeldDuring.of_store {s : State} {i : Instr} {t : Access} {va : Word} {n : Nat} {tr : Translation}
    {old mid new : List (Nat × Word)} (ha : dataAccess s i = some (t, va, n))
    (htr : translateVa s va t s.dataPriv = .ok tr) (hupdate : HeldBefore s old mid)
    (hstore : HeldBefore (applyUpdate s tr.update) mid new) : HeldDuring s i old new := by
  intro e he
  obtain he | ⟨haligned, hval⟩ := hstore e he
  · exact hupdate.during i e he
  · exact .inr ⟨haligned, .inr ⟨t, va, n, tr, ha, htr, hval⟩⟩

/-! ## What an instruction does to the histories -/

theorem csrWrite_histories (s : State) (v : Word) (c : Csr) :
    (csrWrite s v c).codeHistory = s.codeHistory ∧ (csrWrite s v c).pteHistory = s.pteHistory := by
  obtain ⟨-, -, -, -, -, hcode, hpte⟩ := csrWrite_frame s v c
  exact ⟨hcode, hpte⟩

theorem retireCsr_histories (s : State) (v x : Word) (rd : Reg) (c : Csr) (writes : Bool) :
    (retireCsr ((if writes then csrWrite s v c else s).setReg rd x) c writes).codeHistory = s.codeHistory ∧
    (retireCsr ((if writes then csrWrite s v c else s).setReg rd x) c writes).pteHistory = s.pteHistory := by
  rw [retireCsr_eq]
  cases writes
  · exact ⟨rfl, rfl⟩
  · exact csrWrite_histories s v c

theorem ExecOutcome.codeHistory {i : Instr} {s t : State} (h : ExecOutcome i s t) :
    HeldDuring s i s.codeHistory t.codeHistory ∧
    (s.codeHistory ⊆ t.codeHistory ∨ ∃ imm rd rs1, i = .fenceI imm rd rs1) := by
  cases h with
  | trap | goes | sfenceVma | mret | sret => exact ⟨.refl s i _, .inl (List.Subset.refl _)⟩
  | @loads _ _ tr _ _ ha htr =>
    obtain ⟨⟨hheld, hkept⟩, -⟩ := applyUpdate_histories s tr.update
    exact ⟨hheld.during i, .inl hkept⟩
  | @stores _ w tr v _ _ ha htr =>
    obtain ⟨-, htrans, -⟩ := htr
    obtain ⟨⟨hheld, hkept⟩, -⟩ := applyUpdate_histories s tr.update
    obtain ⟨hheld', hkept'⟩ :=
      heldBefore_of_write (physWrite_histories (applyUpdate s tr.update) tr.pa w.bytes v).1
    exact ⟨.of_store ha htrans hheld hheld', .inl (List.Subset.trans hkept hkept')⟩
  | csr v rd x =>
    rw [(retireCsr_histories s v x rd _ _).1]
    exact ⟨.refl s i _, .inl (List.Subset.refl _)⟩
  | fenceI hi => exact ⟨.nil s i _, .inr hi⟩

theorem ExecOutcome.pteHistory {i : Instr} {s t : State} (h : ExecOutcome i s t) :
    HeldDuring s i s.pteHistory t.pteHistory ∧
    (s.pteHistory ⊆ t.pteHistory ∨ ∃ rs1 rs2, i = .sfenceVma rs1 rs2) := by
  cases h with
  | trap | goes | fenceI | mret | sret => exact ⟨.refl s i _, .inl (List.Subset.refl _)⟩
  | @loads _ _ tr _ _ ha htr =>
    obtain ⟨-, hheld, hkept⟩ := applyUpdate_histories s tr.update
    exact ⟨hheld.during i, .inl hkept⟩
  | @stores _ w tr v _ _ ha htr =>
    obtain ⟨-, htrans, -⟩ := htr
    obtain ⟨-, hheld, hkept⟩ := applyUpdate_histories s tr.update
    obtain ⟨hheld', hkept'⟩ :=
      heldBefore_of_write (physWrite_histories (applyUpdate s tr.update) tr.pa w.bytes v).2
    exact ⟨.of_store ha htrans hheld hheld', .inl (List.Subset.trans hkept hkept')⟩
  | csr v rd x =>
    rw [(retireCsr_histories s v x rd _ _).2]
    exact ⟨.refl s i _, .inl (List.Subset.refl _)⟩
  | sfenceVma hi => exact ⟨.nil s i _, .inr hi⟩

/-! ## Stale fetches (R162) -/

/-- An older word is the half of a doubleword in the history that lies at the address. -/
theorem mem_staleWords {s : State} {a : Nat} {cur w : InstrWord} (h : w ∈ staleWords s a cur) :
    ∃ e ∈ s.codeHistory, e.1 = doublewordOf a ∧ w = halfOf e.2 (decide (a % 8 = 4)) := by
  obtain ⟨e, he, hw⟩ := List.mem_filterMap.1 h
  dsimp only at hw
  split at hw
  next hc => exact ⟨e, he, hc.1, (Option.some.inj hw).symm⟩
  next => cases hw

theorem fetchedWord_cases {s : State} {pa : Word} (hr : responder s.board pa.toNat 4 = .ram) :
    fetchedWord s pa = (s.mem.load pa.toNat 4).setWidth 32 ∨
    ∃ h ∈ s.codeHistory, h.1 = doublewordOf pa.toNat ∧ fetchedWord s pa = halfOf h.2 (decide (pa.toNat % 8 = 4)) := by
  simp only [fetchedWord, hr, if_true, implicitRead_ram hr]
  obtain h | h := List.mem_cons.1 (pickVersion_mem ((s.mem.load pa.toNat 4).setWidth 32 : InstrWord)
    (staleWords s pa.toNat ((s.mem.load pa.toNat 4).setWidth 32)) (Config.fetchPick s.tick))
  · exact .inl h
  · exact .inr (mem_staleWords h)

/-- A fetch that a device answers is a draw in every bit (R131). -/
theorem fetchedWord_device {s : State} {pa : Word} (hr : responder s.board pa.toNat 4 ≠ .ram) :
    fetchedWord s pa = (Config.deviceRead s.tick (.data .fetch) pa.toNat).setWidth 32 := by
  simp only [fetchedWord, implicitRead, hr, if_false]
  refine BitVec.eq_of_getLsbD_eq fun i hi => ?_
  rw [BitVec.getLsbD_setWidth, BitVec.getLsbD_setWidth, truncBytes_four_getLsbD _ hi]

/-- Settles O32. -/
theorem staleFetchIsConfined : Obligations.StaleFetchIsConfined := by
  intro s pa v n
  refine ⟨fun hr => ⟨fetchedWord_cases hr, fetchedWord_of_no_older hr⟩, fetchedWord_device,
    (physWrite_histories s pa n v).1, fun va w u hf => ?_, fun i t hx => (exec_outcome hx).codeHistory⟩
  obtain ⟨tr, -, -, rfl, -⟩ := fetchWord_cases hf
  exact (applyUpdate_histories s tr.update).1

/-! ## Stale translations (R154, R156) -/

/-- Every older value can be drawn: the draw takes every index. -/
theorem exists_pickVersion_eq {α : Type} (cur : α) {old : List α} {e : α} (h : e ∈ old) :
    ∃ m, pickVersion cur old m = e := by
  obtain ⟨j, hj, rfl⟩ := List.getElem_of_mem h
  refine ⟨j + 1, ?_⟩
  cases old with
  | nil => cases h
  | cons a l =>
    have hmod : (j + 1) % ((a :: l).length + 1) = j + 1 := Nat.mod_eq_of_lt (by omega)
    simp only [pickVersion, hmod]
    rw [List.getD_cons_succ, List.getD_eq_getElem _ _ hj]

theorem mem_staleEntries {s : State} {t : Access} {ea cur e : Word} :
    e ∈ staleEntries s t ea cur ↔
      ∃ h ∈ s.pteHistory, h.1 = ea.toNat ∧ sameOutcome s.board t ea cur h.2 = false ∧ h.2 = e := by
  simp only [staleEntries, List.mem_filterMap]
  refine exists_congr fun h => and_congr_right fun _ => ?_
  by_cases hc : h.1 = ea.toNat ∧ sameOutcome s.board t ea cur h.2 = false
  · simp [hc]
  · rw [if_neg hc]
    exact ⟨nofun, fun ⟨ha, ho, _⟩ => absurd ⟨ha, ho⟩ hc⟩

theorem usedEntry_cases (s : State) (k : Access) (l : Nat) (ea cur : Word) :
    usedEntry s k l ea cur = cur ∨ ∃ h ∈ s.pteHistory, h.1 = ea.toNat ∧ usedEntry s k l ea cur = h.2 := by
  obtain h | h := List.mem_cons.1 (pickVersion_mem cur (staleEntries s k ea cur) (Config.ptePick s.tick k l))
  · exact .inl h
  · obtain ⟨e, he, ha, -, hval⟩ := mem_staleEntries.1 h
    exact .inr ⟨e, he, ha, hval.symm⟩

theorem setsBits_eq_neededBits (t : Access) : setsBits t = neededBits t := by
  cases t <;> rfl

/-- An older value that no walk draws leads to the same outcome as the value in memory. -/
theorem older_value_cases {s : State} {k : Access} {ea : Word} {h : Nat × Word} (hh : h ∈ s.pteHistory)
    (ha : h.1 = ea.toNat) (cur : Word) :
    h.2 ∈ staleEntries s k ea cur ∨ h.2 = cur ∨
      (h.2 ||| (cur &&& setsBits k) = cur ∧ physAccessible s.board ea 8 .store = true ∧
        responder s.board ea.toNat 8 = .ram) := by
  cases hs : sameOutcome s.board k ea cur h.2 with
  | false => exact .inl (mem_staleEntries.2 ⟨h, hh, ha, hs, rfl⟩)
  | true =>
    refine .inr ?_
    simpa only [sameOutcome, setsBits_eq_neededBits, Bool.or_eq_true, Bool.and_eq_true, decide_eq_true_eq,
      and_assoc] using hs

theorem usedRoot_cases (s : State) (k : Access) : usedRoot s k = s.satp.ppn ∨ usedRoot s k ∈ s.rootHistory := by
  obtain h | h := List.mem_cons.1 (pickVersion_mem s.satp.ppn (s.rootHistory.filter fun r => r ≠ s.satp.ppn)
    (Config.rootPick s.tick k))
  · exact .inl h
  · exact .inr (List.mem_filter.1 h).1

/-- With clean TLBs a walk uses what memory and satp hold. -/
theorem TlbClean.used {s : State} (h : TlbClean s) (k : Access) (l : Nat) (ea cur : Word) :
    usedEntry s k l ea cur = cur ∧ usedRoot s k = s.satp.ppn := by
  obtain ⟨hpte, hroot⟩ := h
  simp [usedEntry, staleEntries, usedRoot, hpte, hroot, pickVersion_nil]

theorem Satp.value_ppn (p : Satp) : p.value.extractLsb' 0 44 = p.ppn := by
  refine BitVec.eq_of_getLsbD_eq fun i hi => ?_
  rw [BitVec.getLsbD_extractLsb', Satp.value_getLsbD p (by omega)]
  simp [hi]

/-- The roots after a write of satp: its root joins them where the write changes satp under Sv39. -/
theorem rootsAfter_cases (s : State) (v : Word) :
    rootsAfter s v = s.rootHistory ∨ (s.satp.sv39 = true ∧ rootsAfter s v = s.satp.ppn :: s.rootHistory) := by
  unfold rootsAfter
  split
  next h =>
    rw [Bool.and_eq_true] at h
    exact .inr ⟨h.left, rfl⟩
  next => exact .inl rfl

theorem csrWrite_rootHistory (s : State) (v : Word) (c : Csr) :
    (csrWrite s v c).rootHistory = s.rootHistory ∨
    (s.satp.sv39 = true ∧ (csrWrite s v c).rootHistory = s.satp.ppn :: s.rootHistory) := by
  cases c
  case satp => exact rootsAfter_cases s v
  all_goals exact .inl rfl

/-- What an instruction does to the roots: a write of satp may add its root, and SFENCE.VMA drops all. -/
theorem ExecOutcome.rootHistory {i : Instr} {s t : State} (h : ExecOutcome i s t) :
    t.rootHistory = s.rootHistory ∨ (s.satp.sv39 = true ∧ t.rootHistory = s.satp.ppn :: s.rootHistory) ∨
    (t.rootHistory = [] ∧ ∃ rs1 rs2, i = .sfenceVma rs1 rs2) := by
  cases h with
  | trap | goes | loads | stores | fenceI | mret | sret => exact .inl (by simp)
  | @csr a c writes v rd x =>
    rw [retireCsr_eq]
    cases writes
    · exact .inl rfl
    · exact (csrWrite_rootHistory s v c).imp_right .inl
  | sfenceVma hi => exact .inr (.inr ⟨rfl, hi⟩)

theorem exec_rootHistory {i : Instr} {s t : State} (h : ExecOutcome i s t) :
    (∀ r ∈ t.rootHistory, r ∈ s.rootHistory ∨ (s.satp.sv39 = true ∧ r = s.satp.ppn)) ∧
    (s.rootHistory ⊆ t.rootHistory ∨ ∃ rs1 rs2, i = .sfenceVma rs1 rs2) := by
  obtain hsame | ⟨hsv39, hadd⟩ | ⟨hnil, hi⟩ := h.rootHistory
  · rw [hsame]
    exact ⟨fun r hr => .inl hr, .inl (List.Subset.refl _)⟩
  · rw [hadd]
    refine ⟨fun r hr => ?_, .inl (List.subset_cons_self ..)⟩
    obtain rfl | hr := List.mem_cons.1 hr
    · exact .inr ⟨hsv39, rfl⟩
    · exact .inl hr
  · rw [hnil]
    exact ⟨nofun, .inr hi⟩

theorem satp_mode_iff (s : State) : (csrRead s .satp).extractLsb' 60 4 = 8#4 ↔ s.satp.sv39 = true :=
  Satp.value_mode_eq_eight_iff s.satp

theorem satp_ppn (s : State) : (csrRead s .satp).extractLsb' 0 44 = s.satp.ppn := Satp.value_ppn s.satp

/-- A write that changes satp while its MODE is 8 adds its root. -/
theorem csrWrite_satp_rootHistory {s : State} {v : Word} (hmode : s.satp.sv39 = true)
    (hne : csrRead (csrWrite s v .satp) .satp ≠ csrRead s .satp) :
    (csrWrite s v .satp).rootHistory = s.satp.ppn :: s.rootHistory := by
  have hchange : s.satp.write v ≠ s.satp := fun h => hne (congrArg Satp.value h)
  simp [csrWrite, rootsAfter, hmode, hchange]

/-- Settles O34. -/
theorem staleTranslationIsConfined : Obligations.StaleTranslationIsConfined := by
  intro s k l n ea cur pa v
  simp only [satp_mode_iff, satp_ppn]
  refine ⟨usedEntry_cases s k l ea cur, rfl, fun e he => exists_pickVersion_eq cur he,
    fun h hh ha => older_value_cases hh ha cur, usedRoot_cases s k, fun hclean => hclean.used k l ea cur,
    (physWrite_histories s pa n v).2, csrWrite_satp_rootHistory, fun va w u hf => ?_, fun i t hx => ?_⟩
  · obtain ⟨tr, -, -, rfl, -⟩ := fetchWord_cases hf
    obtain ⟨-, hheld, hkept⟩ := applyUpdate_histories s tr.update
    exact ⟨hheld, hkept, State.applyUpdate_rootHistory ..⟩
  · obtain ⟨hheld, hpte⟩ := (exec_outcome hx).pteHistory
    obtain ⟨hroots, hroot⟩ := exec_rootHistory (exec_outcome hx)
    refine ⟨hheld, hroots, ?_⟩
    obtain hpte | hi := hpte
    · exact hroot.imp_left fun hroot => ⟨hpte, hroot⟩
    · exact .inr hi

end Sys2Proof.Machine
end

-- ==== Proofs of the page-table walk (spec/20_memory.md R140 to R153) ====
section
/-! PROOFS. The walk with clean TLBs. At each level the entry in memory decides: a pointer leads to the next table, a
leaf to the checks of steps 5 to 8, anything else page-faults. `walkLevel_pointer` and `walkLevel_leaf` say so once,
and the statements about the three levels follow by chaining them. -/

namespace Sys2Proof.Machine

/-! ## Permissions (R148) -/

/-- Settles O55: the table of R148, read as propositions. -/
theorem pagePermissions : Obligations.PagePermissions := by
  intro st pte p
  simp only [permitted, pteR, pteW, pteX, pteU, Bool.and_eq_true, Bool.or_eq_true, Bool.not_eq_true',
    decide_eq_true_eq, and_self]

/-! ## Page numbers and superpages (R147 steps 6 and 8, R150) -/

theorem ptePpn_toNat (pte : Word) : (ptePpn pte).toNat = pte.toNat / 2 ^ 10 % 2 ^ 44 := by
  rw [ptePpn, BitVec.extractLsb'_toNat, Nat.shiftRight_eq_div_pow]

/-- The low page-number bits of an entry as a field and as a number. -/
theorem extractLsb'_eq_zero_iff (pte : Word) {n : Nat} (hn : n ≤ 44) :
    pte.extractLsb' 10 n = 0#n ↔ (ptePpn pte).toNat % 2 ^ n = 0 := by
  rw [ptePpn_toNat, Nat.mod_mod_of_dvd _ (Nat.pow_dvd_pow 2 hn), ← BitVec.toNat_inj, BitVec.extractLsb'_toNat,
    Nat.shiftRight_eq_div_pow]
  simp

/-- At the three levels of Sv39 the model's test is that of R147 step 6. -/
theorem misalignedSuperpage_eq_false_iff (pte : Word) {i : Nat} (hi : i ≤ 2) :
    misalignedSuperpage pte i = false ↔ SuperpageAligned pte i := by
  rw [misalignedSuperpage, decide_eq_false_iff_not, not_not]
  interval_cases i
  · simp [SuperpageAligned, Nat.mod_one]
  · simp only [SuperpageAligned, true_imp_iff, OfNat.one_ne_ofNat, false_imp_iff, and_true]
    exact (extractLsb'_eq_zero_iff pte (n := 9) (by omega)).symm
  · simp only [SuperpageAligned, true_imp_iff, OfNat.ofNat_ne_one, false_imp_iff, true_and]
    exact (extractLsb'_eq_zero_iff pte (n := 18) (by omega)).symm

/-- The physical address of a leaf as the concatenation of R150: `k` bits of page number above `12 + 9i` bits of the
virtual address. -/
theorem leafAddress_eq_append {pte va : Word} {i k : Nat} (hk : 9 * i + k = 44) :
    leafAddress pte va i =
      (pte.extractLsb' (10 + 9 * i) k ++ va.extractLsb' 0 (12 + 9 * i) : BitVec (k + (12 + 9 * i))).setWidth 64 := by
  have hva : va.toNat % 2 ^ (12 + 9 * i) < 2 ^ (12 + 9 * i) := Nat.mod_lt _ (Nat.two_pow_pos _)
  have hpage : (ptePpn pte).toNat / 2 ^ (9 * i) = pte.toNat / 2 ^ (10 + 9 * i) % 2 ^ k := by
    rw [ptePpn_toNat, ← hk, Nat.pow_add 2 (9 * i) k, Nat.mod_mul_right_div_self, Nat.div_div_eq_div_mul, ← Nat.pow_add]
  apply BitVec.eq_of_toNat_eq
  rw [leafAddress, hpage, BitVec.toNat_ofNat, BitVec.toNat_setWidth, BitVec.toNat_append, BitVec.extractLsb'_toNat,
    BitVec.extractLsb'_toNat, Nat.shiftRight_eq_div_pow, Nat.shiftRight_zero,
    ← Nat.shiftLeft_add_eq_or_of_lt hva, Nat.shiftLeft_eq]

/-! ## Entries in memory -/

/-- A read of an entry in memory that holds `pte` is `pte`. -/
theorem implicitRead_of_holds {s : State} {ea pte : Word} {site : Site} (hr : responder s.board ea.toNat 8 = .ram)
    (h : HoldsBytes s.mem ea.toNat 8 pte) : implicitRead s ea 8 site = pte := by
  rw [implicitRead_ram hr]
  exact BitVec.eq_of_getLsbD_eq fun i hi => (Memory.load_holds s.mem 8 ea.toNat (Nat.le_refl 8)).getLsbD_eq h hi

section
variable {s : State} {va : Word} {t : Access} {p : Priv} {i : Nat} {a pte : Word}
  {next : Word → Except Exc Translation}

/-- A table whose entry cannot be read raises the access fault (R153). -/
theorem walkLevel_unreadable (h : physAccessible s.board (pteAddress a va i) 8 .load = false) :
    walkLevel s va t p i a next = .error (accessFaultExc t) := by
  simp [walkLevel, h]

/-- Steps 3 and 4 of the walk at an entry in memory, with clean TLBs (R147). -/
theorem walkLevel_entry (hclean : TlbClean s) (he : EntryIs s a va i pte) :
    walkLevel s va t p i a next =
      if !pteV pte || (!pteR pte && pteW pte) then .error (pageFaultExc t)
      else if decide (pteReserved pte ≠ 0) && Config.reservedPteFaults s.tick t i then .error (pageFaultExc t)
      else if pteR pte || pteX pte then walkLeaf s va t p i (pteAddress a va i) pte pte
      else next (pageAddress (ptePpn pte)) := by
  obtain ⟨hacc, hr, hv⟩ := he
  obtain ⟨hused, -⟩ := hclean.used t i (pteAddress a va i) pte
  simp only [walkLevel, hacc, implicitRead_of_holds hr hv, hused, Bool.not_true, Bool.false_eq_true, if_false]

theorem pteReserved_eq_zero (h : pte.extractLsb' 54 10 = 0#10) : decide (pteReserved pte ≠ 0) = false :=
  decide_eq_false (not_not_intro h)

theorem walkLevel_pointer (hclean : TlbClean s) (he : EntryIs s a va i pte) (hp : IsPointer pte) :
    walkLevel s va t p i a next = next (pageAddress (ptePpn pte)) := by
  obtain ⟨hV, hR, hW, hX, hreserved⟩ := hp
  rw [walkLevel_entry hclean he]
  simp only [pteReserved_eq_zero hreserved, pteV, pteR, pteW, pteX, hV, hR, hW, hX, Bool.not_true, Bool.and_false,
    Bool.or_false, Bool.false_and, Bool.false_eq_true, if_false]

theorem walkLevel_leaf (hclean : TlbClean s) (he : EntryIs s a va i pte) (hl : IsLeaf pte) :
    walkLevel s va t p i a next = walkLeaf s va t p i (pteAddress a va i) pte pte := by
  obtain ⟨hV, hRX, hWR, hreserved⟩ := hl
  have hbad : (!pteV pte || (!pteR pte && pteW pte)) = false := by
    cases hW : pte.getLsbD 2
    · simp only [pteV, pteW, hV, hW, Bool.not_true, Bool.and_false, Bool.or_false]
    · simp only [pteV, pteR, hV, hWR hW, Bool.not_true, Bool.false_and, Bool.or_false]
  rw [walkLevel_entry hclean he, hbad]
  simp only [pteReserved_eq_zero hreserved, pteR, pteX, Bool.false_and, Bool.false_eq_true, if_false, Bool.or_eq_true,
    hRX, if_true]

theorem walkLevel_invalid (hclean : TlbClean s) (he : EntryIs s a va i pte)
    (hbad : pte.getLsbD 0 = false ∨ (pte.getLsbD 1 = false ∧ pte.getLsbD 2 = true)) :
    walkLevel s va t p i a next = .error (pageFaultExc t) := by
  rw [walkLevel_entry hclean he, if_pos]
  simpa [pteV, pteR, pteW] using hbad

/-! ## Leaves (R147 steps 5 to 8) -/

theorem updateDue_eq_true_iff : updateDue t pte = true ↔ pte &&& setsBits t ≠ setsBits t := by
  rw [updateDue, decide_eq_true_eq, setsBits_eq_neededBits]

theorem walkLeaf_ok {ea : Word} (hper : permitted s.mstatus pte t p = true)
    (hmis : misalignedSuperpage pte i = false)
    (hacc : pte &&& setsBits t ≠ setsBits t → physAccessible s.board ea 8 .store = true) :
    walkLeaf s va t p i ea pte pte = .ok (leafTranslation ea pte (leafAddress pte va i) t) := by
  by_cases hdue : pte &&& setsBits t = setsBits t
  · have hno : updateDue t pte = false := Bool.eq_false_iff.2 fun h => updateDue_eq_true_iff.1 h hdue
    simp [walkLeaf, hper, hmis, hno, leafTranslation, hdue]
  · simp [walkLeaf, hper, hmis, updateDue_eq_true_iff.2 hdue, hacc hdue, leafTranslation, hdue, updatedEntry,
      ← setsBits_eq_neededBits]

theorem walkLeaf_forbidden {ea : Word} (h : permitted s.mstatus pte t p = false ∨ misalignedSuperpage pte i = true) :
    walkLeaf s va t p i ea pte pte = .error (pageFaultExc t) := by
  unfold walkLeaf
  cases hper : permitted s.mstatus pte t p
  · rfl
  · obtain h | h := h
    · cases hper.symm.trans h
    · simp [h]

theorem walkLeaf_locked {ea : Word} (hper : permitted s.mstatus pte t p = true)
    (hmis : misalignedSuperpage pte i = false) (hdue : pte &&& setsBits t ≠ setsBits t)
    (hacc : physAccessible s.board ea 8 .store = false) :
    walkLeaf s va t p i ea pte pte = .error (accessFaultExc t) := by
  simp [walkLeaf, hper, hmis, updateDue_eq_true_iff.2 hdue, hacc]

/-! ## The walk from level to level -/

theorem walk_eq_walkLevel (s : State) (va : Word) (t : Access) (p : Priv) (i : Nat) (a : Word) :
    ∃ next, walk s va t p i a = walkLevel s va t p i a next ∧
      (i = 0 → ∀ b, next b = .error (pageFaultExc t)) := by
  cases i with
  | zero => exact ⟨_, rfl, fun _ _ => rfl⟩
  | succ i => exact ⟨_, rfl, nofun⟩

theorem walk_pointer (hclean : TlbClean s) (he : EntryIs s a va (i + 1) pte) (hp : IsPointer pte) :
    walk s va t p (i + 1) a = walk s va t p i (pageAddress (ptePpn pte)) :=
  walkLevel_pointer hclean he hp

/-- A leaf the access may use gives its translation, at every level. -/
theorem walk_leaf (hi : i ≤ 2) (hclean : TlbClean s) (he : EntryIs s a va i pte)
    (hok : LeafOk s (pteAddress a va i) pte t p) (halign : SuperpageAligned pte i) :
    walk s va t p i a =
      .ok (leafTranslation (pteAddress a va i) pte (leafAddress pte va i) t) := by
  obtain ⟨hl, hper, hacc⟩ := hok
  obtain ⟨next, hwalk, -⟩ := walk_eq_walkLevel s va t p i a
  rw [hwalk, walkLevel_leaf hclean he hl]
  exact walkLeaf_ok hper ((misalignedSuperpage_eq_false_iff pte hi).2 halign) hacc

/-- What ends the walk at a level, where the translation is the walk from that level. -/
theorem walkEndsAt_of_walk (hi : i ≤ 2) (hclean : TlbClean s) (hwalk : translateVa s va t p = walk s va t p i a) :
    WalkEndsAt s va t p i a := by
  obtain ⟨next, hlevel, hnext⟩ := walk_eq_walkLevel s va t p i a
  rw [WalkEndsAt, hwalk, hlevel]
  refine ⟨walkLevel_unreadable, fun pte he => ⟨?_, ?_⟩⟩
  · rintro (hV | hWR | ⟨hl, hforbidden⟩ | ⟨hi0, hp⟩)
    · exact walkLevel_invalid hclean he (.inl hV)
    · exact walkLevel_invalid hclean he (.inr hWR)
    · rw [walkLevel_leaf hclean he hl]
      refine walkLeaf_forbidden (hforbidden.imp_right fun hno => ?_)
      rwa [← misalignedSuperpage_eq_false_iff pte hi, Bool.not_eq_false] at hno
    · rw [walkLevel_pointer hclean he hp]
      exact hnext hi0 _
  · rintro ⟨hl, hper, halign, hdue, hacc⟩
    rw [walkLevel_leaf hclean he hl]
    exact walkLeaf_locked hper ((misalignedSuperpage_eq_false_iff pte hi).2 halign) hdue hacc

end

/-! ## Translation (R140, R142, R151) -/

theorem canonical_iff (va : Word) : canonical va = true ↔ va = (va.extractLsb' 0 39).signExtend 64 := by
  rw [canonical, decide_eq_true_eq]
  exact eq_comm

/-- With clean TLBs a translated access walks from the root in satp. -/
theorem translateVa_walk {s : State} {va : Word} {t : Access} {p : Priv} (ht : translated s p = true)
    (hva : va = (va.extractLsb' 0 39).signExtend 64) (hclean : TlbClean s) :
    translateVa s va t p = walk s va t p 2 (pageAddress s.satp.ppn) := by
  obtain ⟨-, hroot⟩ := hclean.used t 0 0#64 0#64
  simp [translateVa, ht, (canonical_iff va).2 hva, hroot]

theorem translateVa_not_canonical {s : State} {va : Word} {t : Access} {p : Priv} (ht : translated s p = true)
    (hva : va ≠ (va.extractLsb' 0 39).signExtend 64) : translateVa s va t p = .error (pageFaultExc t) := by
  have hno : canonical va = false := Bool.eq_false_iff.2 fun h => hva ((canonical_iff va).1 h)
  simp [translateVa, ht, hno]

/-- Settles O56: the walk goes down through pointers and ends at a leaf the access may use. -/
theorem pageWalkTranslates : Obligations.PageWalkTranslates := by
  intro s va t p l2 l1 l0 ht hva hclean he2
  have hwalk := translateVa_walk (t := t) ht hva hclean
  refine ⟨fun hok halign => ?_, fun hp2 he1 => ⟨fun hok halign => ?_, fun hp1 he0 hok => ?_⟩⟩
  · rw [hwalk, walk_leaf (by omega) hclean he2 hok ⟨nofun, fun _ => halign⟩, leafAddress_eq_append (k := 26) rfl]
  · rw [hwalk, walk_pointer hclean he2 hp2, walk_leaf (by omega) hclean he1 hok ⟨fun _ => halign, nofun⟩,
      leafAddress_eq_append (k := 35) rfl]
  · rw [hwalk, walk_pointer hclean he2 hp2, walk_pointer hclean he1 hp1,
      walk_leaf (by omega) hclean he0 hok ⟨nofun, nofun⟩, leafAddress_eq_append (k := 44) rfl]

/-- Settles O57: each level that the walk reaches ends as `WalkEndsAt` says. -/
theorem pageWalkFaults : Obligations.PageWalkFaults := by
  intro s va t p ht
  refine ⟨translateVa_not_canonical ht, fun hva hclean => ?_, rfl, rfl, rfl, rfl, rfl, rfl⟩
  have hwalk2 := translateVa_walk (t := t) ht hva hclean
  refine ⟨walkEndsAt_of_walk (by omega) hclean hwalk2, fun l2 he2 hp2 => ?_⟩
  have hwalk1 := hwalk2.trans (walk_pointer hclean he2 hp2)
  refine ⟨walkEndsAt_of_walk (by omega) hclean hwalk1, fun l1 he1 hp1 => ?_⟩
  have hwalk0 := hwalk1.trans (walk_pointer hclean he1 hp1)
  exact walkEndsAt_of_walk (by omega) hclean hwalk0

end Sys2Proof.Machine
end

-- ==== Proofs of the SYSTEM instructions, the trap vector and time (spec/46_system.md, spec/60_exceptions.md) ====
section
/-! PROOFS. ECALL, EBREAK, MRET, SRET, SFENCE.VMA and WFI: in each mode the instruction is either its effect or an
illegal instruction. Then where a trap goes (R435) and what passes between two steps (R86, R412). -/

namespace Sys2Proof.Machine

/-! ## Where the mode may run the instruction (R379 to R382) -/

section
variable {s : State} {rs1 rs2 : Reg}

theorem exec_mret_machine (h : s.priv = .M) : exec .mret s = .next (returnM s) := by
  simp [exec, execMret, h]

theorem exec_sret_legal (h : (s.priv = .S ∧ s.mstatus.tsr = false) ∨ (s.priv = .M ∧ s.board.sretInMLegal = true)) :
    exec .sret s = .next (returnS s) := by
  obtain ⟨hp, hok⟩ | ⟨hp, hok⟩ := h <;> simp [exec, execSret, hp, hok]

theorem exec_sfenceVma_legal (h : s.priv = .M ∨ (s.priv = .S ∧ s.mstatus.tvm = false)) :
    exec (.sfenceVma rs1 rs2) s = .next (fenceVma s) := by
  obtain hp | ⟨hp, hok⟩ := h
  · simp [exec, execSfenceVma, hp]
  · simp [exec, execSfenceVma, hp, hok]

theorem exec_wfi_legal (h : s.priv = .M ∨ s.mstatus.tw = false) : exec .wfi s = .next (s.retire s.nextPc) := by
  obtain hp | hok := h
  · simp [exec, execWfi, hp]
  · simp [exec, execWfi, hok]

/-! ## Where it may not -/

theorem exec_mret_illegal (h : s.priv ≠ .M) : exec .mret s = .next (s.raiseIllegal (encode .mret)) := by
  cases hp : s.priv with
  | U | S => simp [exec, execMret, hp]
  | M => exact absurd hp h

theorem exec_sret_illegal (h : s.priv = .U ∨ (s.priv = .S ∧ s.mstatus.tsr = true) ∨
      (s.priv = .M ∧ s.board.sretInMLegal = false)) : exec .sret s = .next (s.raiseIllegal (encode .sret)) := by
  obtain hp | ⟨hp, hno⟩ | ⟨hp, hno⟩ := h
  · simp [exec, execSret, hp]
  · simp [exec, execSret, hp, hno]
  · simp [exec, execSret, hp, hno]

theorem exec_sfenceVma_illegal (h : s.priv = .U ∨ (s.priv = .S ∧ s.mstatus.tvm = true)) :
    exec (.sfenceVma rs1 rs2) s = .next (s.raiseIllegal (encode (.sfenceVma rs1 rs2))) := by
  obtain hp | ⟨hp, hno⟩ := h
  · simp [exec, execSfenceVma, hp]
  · simp [exec, execSfenceVma, hp, hno]

theorem exec_wfi_illegal (hp : s.priv ≠ .M) (htw : s.mstatus.tw = true) :
    exec .wfi s = .next (s.raiseIllegal (encode .wfi)) := by
  simp [exec, execWfi, hp, htw]

end

/-- Settles O33: SFENCE.VMA is a completion that empties the TLBs, WFI a completion alone. -/
theorem sfenceVmaAndWfiComplete : Obligations.SfenceVmaAndWfiComplete := by
  intro s rs1 rs2
  rw [mstatus_tvm, mstatus_tw]
  refine ⟨fun h => ?_, fun h => ?_⟩
  · obtain ⟨hregs, hcounted, hsys, hplatform, ⟨hcode, -⟩, hmem⟩ :=
      retire_frame { s with pteHistory := [], rootHistory := [] } s.nextPc
    exact ⟨fenceVma s, exec_sfenceVma_legal h, ⟨rfl, rfl⟩, hregs, rfl, hcounted, hsys, hplatform, hmem, hcode⟩
  · obtain ⟨hregs, hcounted, hframe⟩ := retire_frame s s.nextPc
    exact ⟨_, exec_wfi_legal h, hregs, rfl, hcounted, hframe⟩

/-- Settles O35: each of the four is illegal where its mode test fails, with its own word as trap value (R370). -/
theorem privilegedInstructionsAreIllegalBelow : Obligations.PrivilegedInstructionsAreIllegalBelow := by
  intro s rs1 rs2
  rw [mstatus_tsr, mstatus_tvm, mstatus_tw]
  exact ⟨exec_mret_illegal, exec_sret_illegal, exec_sfenceVma_illegal, fun ⟨hp, htw⟩ => exec_wfi_illegal hp htw⟩

/-- Settles O36: a return writes the mode, three fields of mstatus and the pc, and counts. -/
theorem trapReturnsComplete : Obligations.TrapReturnsComplete := by
  intro s
  rw [mstatus_tsr]
  refine ⟨fun h => ⟨_, exec_mret_machine h, ?_⟩, fun h => ⟨_, exec_sret_legal h, ?_⟩⟩ <;>
    exact ⟨rfl, rfl, rfl, State.reg_congr rfl, rfl, ⟨rfl, rfl, rfl, rfl, rfl, rfl⟩, by simp [SameControl],
      by simp [SamePlatform], ⟨rfl, rfl, rfl⟩, fun _ => rfl⟩

/-- Settles O37: the call of each mode and the breakpoint are one trap (R371, R372). -/
theorem environmentCallsTrap : Obligations.EnvironmentCallsTrap := by
  intro s
  refine ⟨fun h => ?_, fun h => ?_, fun h => ?_, rfl⟩ <;>
    simp [Traps, exec, execEcall, h, State.raiseCall, State.nextPc]

/-! ## Where a trap goes (R435) -/

theorem Tvec.value_mode (t : Tvec) : t.value.getLsbD 0 = t.vectored := by
  rw [Tvec.value_getLsbD t (by omega), if_pos rfl]

theorem Tvec.value_base (t : Tvec) : t.value &&& ~~~3#64 = t.baseAddress := by
  refine BitVec.eq_of_getLsbD_eq fun i hi => ?_
  rw [BitVec.getLsbD_and, Tvec.value_getLsbD t hi, Tvec.baseAddress, BitVec.getLsbD_append, BitVec.getLsbD_not]
  by_cases h : i < 2
  · interval_cases i <;> simp
  · have hmask : (3#64).getLsbD i = false := by
      rw [BitVec.getLsbD_ofNat, Nat.testBit_lt_two_pow (show 3 < 2 ^ i from ?_), Bool.and_false]
      exact Nat.lt_of_lt_of_le (by omega : 3 < 2 ^ 2) (Nat.pow_le_pow_right (by omega) (by omega))
    rw [if_neg h, if_neg (by omega), if_neg (by omega), hmask]
    simp [hi]

theorem vectorTarget_direct {b : Board} {v : Tvec} {c : Cause} (h : v.vectored = false) :
    vectorTarget b v c = v.baseAddress := by
  simp [vectorTarget, h]

theorem vectorTarget_vectored {b : Board} {v : Tvec} {c : Cause} (hv : v.vectored = true)
    (hc : c.isInterrupt = true ∨ b.vectorExceptions = true) :
    vectorTarget b v c = v.baseAddress + BitVec.ofNat 64 (4 * c.code) := by
  cases c with
  | irq i => simp [vectorTarget, hv]
  | exc e => simp [vectorTarget, hv, hc.resolve_left nofun]

theorem vectorTarget_exception {b : Board} {v : Tvec} {c : Cause} (hc : c.isInterrupt = false)
    (hb : b.vectorExceptions = false) : vectorTarget b v c = v.baseAddress := by
  cases c with
  | irq i => cases hc
  | exc e => simp [vectorTarget, hb]

/-- Settles O50, by the mode of the vector register and the kind of the cause. -/
theorem trapVector : Obligations.TrapVector := by
  intro b v c
  rw [Tvec.value_mode, Tvec.value_base]
  refine ⟨vectorTarget_direct, fun hv hc => ?_, vectorTarget_exception, vectorTarget_aligned b v c⟩
  rw [vectorTarget_vectored hv hc, BitVec.ofNat_mul]

/-! ## Between two steps (R61, R86, R412) -/

/-- Settles O60: mtime by `advanceNoWrap_le`, mcycle and the S-level line by their gates, the rest unchanged. -/
theorem timeBetweenSteps : Obligations.TimeBetweenSteps := by
  intro s
  have hcycle (h : (csrRead s .mcountinhibit).getLsbD 0 = true) : s.elapse.mcycle = s.mcycle := by
    have hstill : s.mcountinhibit.getLsbD 0 = true := by
      rw [csrRead, BitVec.getLsbD_and, Bool.and_eq_true] at h
      exact h.left
    rw [State.elapse_mcycle, if_pos hstill]
  refine ⟨advanceNoWrap_le .., hcycle, fun h => by simp [h], State.reg_congr rfl, rfl, ⟨rfl, rfl⟩, ?_⟩
  simp [SameTrapRegs, SameControl, SameMemory, SameHidden]

end Sys2Proof.Machine
end

-- ==== Proofs of the CSR instructions and of CSR reads and writes (spec/10_state.md, spec/46_system.md) ====
section
/-! PROOFS. The access check (R30, R31, R383), the six CSR instructions (R373 to R378), and what each CSR reads as
after a write (R384). A statement about a register that is put together from fields is proved bit by bit. -/

namespace Sys2Proof.Machine

/-! ## The access check -/

theorem mem_csrTable_of_ite {a b : CsrAddr} {c d : Csr} {x : Option Csr}
    (h : (if a = b then some d else x) = some c) (hb : (b, d) ∈ csrTable) (hx : x = some c → (a, c) ∈ csrTable) :
    (a, c) ∈ csrTable := by
  split at h
  next e =>
    cases h
    exact e ▸ hb
  next => exact hx h

/-- `csrOf` is the table of R30. -/
theorem csrOf_eq_some_iff {a : CsrAddr} {c : Csr} : csrOf a = some c ↔ (a, c) ∈ csrTable := by
  constructor
  · intro h
    unfold csrOf at h
    iterate 39 (refine mem_csrTable_of_ite h (by decide) ?_; clear h; intro h)
    cases h
  · have key : ∀ row ∈ csrTable, csrOf row.1 = some row.2 := by decide
    exact key (a, c)

theorem csrOf_eq_none_iff {a : CsrAddr} : csrOf a = none ↔ ∀ c, (a, c) ∉ csrTable := by
  simp only [Option.eq_none_iff_forall_ne_some, ne_eq, csrOf_eq_some_iff]

/-- The three ways the check fails at the number of a CSR. -/
theorem csrCheck_eq_none_iff {s : State} {a : CsrAddr} {writes : Bool} {c : Csr} (h : csrOf a = some c) :
    csrCheck s a writes = none ↔
      s.priv.level < csrLevel c ∨ (writes = true ∧ csrReadOnly c = true) ∨
      (c = .satp ∧ s.priv = .S ∧ s.mstatus.tvm = true) := by
  rw [← not_iff_not, ← ne_eq, Option.ne_none_iff_exists']
  simp only [csrCheck_eq_some_iff, h, Option.some.injEq, exists_eq_left', not_or, not_lt]

/-- The check in terms of the number alone (R31). -/
theorem csrCheck_eq_none_iff_number (s : State) (a : CsrAddr) (writes : Bool) :
    csrCheck s a writes = none ↔
      (∀ c, (a, c) ∉ csrTable) ∨ s.priv.bits.toNat < (a.extractLsb' 8 2).toNat ∨
      (writes = true ∧ a.extractLsb' 10 2 = 0b11#2) ∨ (a = 0x180#12 ∧ s.priv = .S ∧ s.mstatus.tvm = true) := by
  cases h : csrOf a with
  | none =>
    have hno : csrCheck s a writes = none := by simp [csrCheck, h]
    exact iff_of_true hno (.inl (csrOf_eq_none_iff.1 h))
  | some c =>
    have hrow : ¬∀ c, (a, c) ∉ csrTable := fun hno => hno c (csrOf_eq_some_iff.1 h)
    obtain ⟨hlevel, hro, hsatp⟩ := csrOf_class h
    rw [csrCheck_eq_none_iff h, hlevel, hro, decide_eq_true_iff, decide_eq_decide.1 hsatp, Priv.level,
      or_iff_right hrow]

section
variable (s : State) (rd rs1 : Reg) (uimm : BitVec 5) (a : CsrAddr)

theorem exec_csrrw : exec (.csrrw rd a rs1) s =
    csrInstr s (encode (.csrrw rd a rs1)) rd a true (fun _ => s.reg rs1) := rfl
theorem exec_csrrs : exec (.csrrs rd a rs1) s =
    csrInstr s (encode (.csrrs rd a rs1)) rd a (decide (rs1 ≠ 0#5)) (fun old => old ||| s.reg rs1) := rfl
theorem exec_csrrc : exec (.csrrc rd a rs1) s =
    csrInstr s (encode (.csrrc rd a rs1)) rd a (decide (rs1 ≠ 0#5)) (fun old => old &&& ~~~s.reg rs1) := rfl
theorem exec_csrrwi : exec (.csrrwi rd a uimm) s =
    csrInstr s (encode (.csrrwi rd a uimm)) rd a true (fun _ => uimm.setWidth 64) := rfl
theorem exec_csrrsi : exec (.csrrsi rd a uimm) s =
    csrInstr s (encode (.csrrsi rd a uimm)) rd a (decide (uimm ≠ 0#5)) (fun old => old ||| uimm.setWidth 64) := rfl
theorem exec_csrrci : exec (.csrrci rd a uimm) s =
    csrInstr s (encode (.csrrci rd a uimm)) rd a (decide (uimm ≠ 0#5)) (fun old => old &&& ~~~uimm.setWidth 64) := rfl

end

theorem csrInstr_traps {s : State} {w : InstrWord} {rd : Reg} {a : CsrAddr} {writes : Bool} {f : Word → Word}
    (h : csrCheck s a writes = none) :
    Traps s (csrInstr s w rd a writes f) .illegalInstruction s.pc (w.setWidth 64) := csrInstr_illegal h

/-- Settles O38: the table and the check from the numbers, and the six forms by `csrInstr_traps`. -/
theorem csrAccessCheck : Obligations.CsrAccessCheck := by
  intro s a writes
  rw [mstatus_tvm]
  refine ⟨fun c => csrOf_eq_some_iff, csrCheck_eq_none_iff_number s a writes,
    fun c h => (csrCheck_eq_some_iff.1 h).left, ?_⟩
  rintro i rd rs1 uimm (⟨rfl, rfl⟩ | ⟨rfl, rfl⟩ | ⟨rfl, rfl⟩ | ⟨rfl, rfl⟩ | ⟨rfl, rfl⟩ | ⟨rfl, rfl⟩) h
  · exact exec_csrrw s rd rs1 a ▸ csrInstr_traps h
  · exact exec_csrrs s rd rs1 a ▸ csrInstr_traps h
  · exact exec_csrrc s rd rs1 a ▸ csrInstr_traps h
  · exact exec_csrrwi s rd uimm a ▸ csrInstr_traps h
  · exact exec_csrrsi s rd uimm a ▸ csrInstr_traps h
  · exact exec_csrrci s rd uimm a ▸ csrInstr_traps h

/-! ## The CSR instructions -/

theorem csrModified_eq (s : State) (c : Csr) : csrModified s c = readModifyValue s c := by
  cases c
  case mip =>
    cases h : s.seipSw <;> simp [csrModified, readModifyValue, csrRead, bitAt, h]
  all_goals rfl

/-- The CSRs but minstret and instret read nothing that the register write and the retirement change. -/
theorem csrRead_retireCsr (u : State) (rd : Reg) (x : Word) (c : Csr) (writes : Bool) {d : Csr} (hd : d ≠ .minstret)
    (hd' : d ≠ .instret) : csrRead (retireCsr (u.setReg rd x) c writes) d = csrRead u d := by
  rw [retireCsr_eq]
  cases d
  case minstret => exact absurd rfl hd
  case instret => exact absurd rfl hd'
  all_goals rfl

/-- A CSR instruction whose check passes, as R373 to R378 have it. -/
theorem csrInstr_done {s : State} {w : InstrWord} {rd : Reg} {a : CsrAddr} {writes : Bool} {f : Word → Word} {c : Csr}
    (h : csrCheck s a writes = some c) {P : Prop} (hP : writes = true ↔ P) :
    CsrDone s (csrInstr s w rd a writes f) rd c P (f (readModifyValue s c)) := by
  rw [← csrModified_eq]
  set new := f (csrModified s c) with hnew
  set u := if writes then csrWrite s new c else s with hu
  obtain ⟨hregs, hpc, hpriv, hmem, hplatform, hcode, hpte⟩ :
      SameRegs s u ∧ u.pc = s.pc ∧ u.priv = s.priv ∧ u.mem = s.mem ∧ SamePlatform s u ∧
        u.codeHistory = s.codeHistory ∧ u.pteHistory = s.pteHistory := by
    cases writes
    · exact ⟨fun _ => rfl, rfl, rfl, rfl, by simp [hu, SamePlatform], rfl, rfl⟩
    · exact csrWrite_frame s new c
  refine ⟨retireCsr (u.setReg rd (csrRead s c)) c writes, u, csrInstr_legal h, fun hw => if_pos (hP.2 hw),
    fun hw => if_neg (mt hP.1 hw), ?_, ?_, ?_, fun d hd hd' => csrRead_retireCsr u rd _ c writes hd hd', ?_⟩
  all_goals rw [retireCsr_eq]
  · obtain ⟨hrd, hother⟩ := State.setReg_regIs u rd (csrRead s c)
    exact ⟨hrd, fun q hq => (hother q hq).trans (hregs q)⟩
  · exact congrArg (· + 4#64) hpc
  · exact hpriv
  · refine ⟨SameSystem.refl u, rfl, ?_, ?_, hplatform, fun b => congrArg (Memory.byteAt · b) hmem, hcode, hpte⟩
    · rintro ⟨hw, rfl⟩
      have hwrites := hP.2 hw
      simp [hwrites, hu, csrWrite]
    · intro hno
      exact if_neg (fun hw => hno (hw.imp_left hP.1))

/-- Settles O39: the six forms are `csrInstr` with what they write, and whether. -/
theorem csrInstructionsComplete : Obligations.CsrInstructionsComplete := by
  intro s rd rs1 uimm a c
  rw [exec_csrrw, exec_csrrs, exec_csrrc, exec_csrrwi, exec_csrrsi, exec_csrrci]
  exact ⟨fun h => csrInstr_done h (by simp), fun h => csrInstr_done h (by simp),
    fun h => csrInstr_done h decide_eq_true_iff, fun h => csrInstr_done h decide_eq_true_iff,
    fun h => csrInstr_done h decide_eq_true_iff, fun h => csrInstr_done h decide_eq_true_iff⟩

/-! ## Registers that are one masked word -/

theorem and_mask_and_mask (v m : Word) : v &&& m &&& m = v &&& m := by
  rw [BitVec.and_assoc, BitVec.and_self]

theorem setWidth_five_setWidth (v : Word) : (v.setWidth 5).setWidth 64 = v &&& 0x1F#64 := by
  apply BitVec.eq_of_toNat_eq
  rw [← shamt5_eq, shamt5, BitVec.toNat_setWidth, BitVec.toNat_setWidth]
  omega

theorem causeValue_of_legal {s : State} {supervisor : Bool} {v : Word} (h : legalCause supervisor v = true) :
    causeValue s supervisor v = v := if_pos h

theorem legalCause_exc (e : Exc) (supervisor : Bool) : legalCause supervisor (BitVec.ofNat 64 e.code) = true := by
  cases e <;> cases supervisor <;> decide

theorem legalCause_irq (i : Irq) : legalCause false (0x8000000000000000#64 + BitVec.ofNat 64 i.code) = true := by
  cases i <;> decide

theorem legalCause_supervisor_irq {i : Irq} (h : i = .ssi ∨ i = .sti ∨ i = .sei) :
    legalCause true (0x8000000000000000#64 + BitVec.ofNat 64 i.code) = true := by
  obtain rfl | rfl | rfl := h <;> decide

/-- Settles O40: a mask applied at the write and again at the read is applied once. -/
theorem csrWritesAreMasked : Obligations.CsrWritesAreMasked := by
  intro s v
  refine ⟨and_mask_and_mask .., and_mask_and_mask .., and_mask_and_mask .., setWidth_five_setWidth v,
    setWidth_five_setWidth v, and_mask_and_mask .., and_mask_and_mask .., and_mask_and_mask .., rfl, rfl, rfl, rfl, rfl,
    rfl, ?_, ?_⟩
  · rintro e rfl
    exact ⟨causeValue_of_legal (legalCause_exc e false), causeValue_of_legal (legalCause_exc e true)⟩
  · rintro i rfl
    exact ⟨causeValue_of_legal (legalCause_irq i), fun h => causeValue_of_legal (legalCause_supervisor_irq h)⟩

/-! ## mstatus and sstatus -/

theorem mppWrite_bits (old : Priv) (v : BitVec 2) : (mppWrite old v).bits = if v = 0b10#2 then old.bits else v := by
  have key : ∀ v : BitVec 2, v = 0b00#2 ∨ v = 0b01#2 ∨ v = 0b10#2 ∨ v = 0b11#2 := by decide
  obtain rfl | rfl | rfl | rfl := key v <;> rfl

/-- Settles O41, bit by bit: 10 keeps MPP, the other three values are written. -/
theorem mstatusWriteIsMasked : Obligations.MstatusWriteIsMasked := by
  intro s v
  have hmpp := mppWrite_bits s.mstatus.mpp (v.extractLsb' 11 2)
  refine BitVec.eq_of_getLsbD_eq fun k hk => ?_
  split
  next h =>
    rw [if_pos h] at hmpp
    simp only [csrRead, csrWrite, Mstatus.write, Mstatus.value_getLsbD, Mstatus.stored_getLsbD, BitVec.getLsbD_or,
      BitVec.getLsbD_and, hmpp]
    interval_cases k <;> simp
  next h =>
    rw [if_neg h] at hmpp
    simp only [csrRead, csrWrite, Mstatus.write, Mstatus.value_getLsbD, Mstatus.stored_getLsbD, BitVec.getLsbD_or,
      BitVec.getLsbD_and, hmpp, BitVec.getLsbD_extractLsb']
    interval_cases k <;> simp

/-- Settles O42, bit by bit. -/
theorem sstatusIsAViewOfMstatus : Obligations.SstatusIsAViewOfMstatus := by
  intro s v
  constructor <;> refine BitVec.eq_of_getLsbD_eq fun k hk => ?_
  · simp only [csrRead, Mstatus.sstatusValue, Mstatus.value, BitVec.getLsbD_or, BitVec.getLsbD_and]
    interval_cases k <;> simp
  · simp only [csrRead, csrWrite, Mstatus.writeSstatus, Mstatus.value_getLsbD, Mstatus.stored_getLsbD,
      BitVec.getLsbD_or, BitVec.getLsbD_and, BitVec.getLsbD_not]
    interval_cases k <;> simp

/-! ## mtvec, stvec and satp -/

/-- A vector register after a write: MODE 2 and 3 leave MODE (R56, R72). -/
theorem Tvec.value_write (t : Tvec) (v : Word) :
    (t.write v).value = if v.getLsbD 1 then (v &&& ~~~3#64) ||| (t.value &&& 3#64) else v := by
  refine BitVec.eq_of_getLsbD_eq fun k hk => ?_
  cases hmode : v.getLsbD 1 <;>
    simp only [Tvec.value_getLsbD _ hk, Tvec.write, hmode, BitVec.getLsbD_extractLsb', BitVec.getLsbD_or,
      BitVec.getLsbD_and, BitVec.getLsbD_not, if_true, Bool.false_eq_true, if_false]
  · have hbit : v[1] = false := hmode
    interval_cases k <;> simp [hbit]
  · interval_cases k <;> simp

/-- The fields that satp keeps of a word. -/
theorem satp_fields (v : Word) :
    v.extractLsb' 60 4 ++ 0#16 ++ v.extractLsb' 0 44 = v &&& 0xF0000FFFFFFFFFFF#64 := by
  refine BitVec.eq_of_getLsbD_eq fun k hk => ?_
  simp only [BitVec.getLsbD_append, BitVec.getLsbD_extractLsb', BitVec.getLsbD_and]
  interval_cases k <;> simp

theorem Satp.value_write (p : Satp) (v : Word) :
    (p.write v).value =
      if v.extractLsb' 60 4 = 0#4 ∨ v.extractLsb' 60 4 = 8#4 then v &&& 0xF0000FFFFFFFFFFF#64 else p.value := by
  by_cases h0 : v.extractLsb' 60 4 = 0#4
  · simp [← satp_fields, Satp.write, Satp.value, h0]
  · by_cases h8 : v.extractLsb' 60 4 = 8#4
    · simp [← satp_fields, Satp.write, Satp.value, h8]
    · simp [Satp.write, h0, h8]

/-- Settles O43. -/
theorem vectorAndTranslationRegisterWrites : Obligations.VectorAndTranslationRegisterWrites := fun s v =>
  ⟨s.mtvec.value_write v, s.stvec.value_write v, s.satp.value_write v⟩

/-! ## The interrupt registers -/

theorem mip_getLsbD (s : State) (k : Nat) :
    (csrRead s .mip).getLsbD k =
      ((s.extMei && decide (k = 11)) || ((s.seipSw || s.extSei) && decide (k = 9)) ||
        (decide (s.mtimecmp.toNat ≤ s.mtime.toNat) && decide (k = 7)) || (s.stip && decide (k = 5)) ||
        (s.msip && decide (k = 3)) || (s.ssip && decide (k = 1))) := by
  simp only [csrRead, mipValue, pending, BitVec.getLsbD_or, bitAt_getLsbD]
  simp

theorem csrRead_mip_write (s : State) (v : Word) :
    csrRead (csrWrite s v .mip) .mip =
      (v &&& 0x222#64) ||| (csrRead s .mip &&& 0x888#64) ||| (if s.extSei then 0x200#64 else 0#64) := by
  refine BitVec.eq_of_getLsbD_eq fun k hk => ?_
  cases hline : s.extSei <;>
    simp only [mip_getLsbD, csrWrite, hline, BitVec.getLsbD_or, BitVec.getLsbD_and, if_true, Bool.false_eq_true,
      if_false] <;>
    interval_cases k <;> simp

theorem csrRead_mip_write_sip (s : State) (v : Word) :
    csrRead (csrWrite s v .sip) .mip = (csrRead s .mip &&& ~~~2#64) ||| (v &&& 2#64) := by
  refine BitVec.eq_of_getLsbD_eq fun k hk => ?_
  simp only [mip_getLsbD, csrWrite, BitVec.getLsbD_or, BitVec.getLsbD_and, BitVec.getLsbD_not]
  interval_cases k <;> simp

theorem csrRead_mie_write_sie (s : State) (v : Word) :
    csrRead (csrWrite s v .sie) .mie = (csrRead s .mie &&& ~~~0x222#64) ||| (v &&& 0x222#64) := by
  refine BitVec.eq_of_getLsbD_eq fun k hk => ?_
  simp only [csrRead, csrWrite, State.mieValue, BitVec.getLsbD_or, BitVec.getLsbD_and, BitVec.getLsbD_not]
  interval_cases k <;> simp

/-- Settles O44, from the bits of mip and mie after each write. -/
theorem interruptRegisterWrites : Obligations.InterruptRegisterWrites := fun s v =>
  ⟨csrRead_mip_write s v, mipValue_getLsbD_code s .mti, mipValue_getLsbD_code s .sei, rfl,
    csrRead_mie_write_sie s v, rfl, csrRead_mip_write_sip s v⟩

/-! ## The CSRs that no write reaches -/

/-- Settles O48: level 0 and a read-only number decide who may read and that none writes. -/
theorem hardwiredAndPlatformCsrs : Obligations.HardwiredAndPlatformCsrs := by
  intro s v c
  have hzero (hc : c ∈ [.hpmcounter3, .hpmcounter4, .mhpmcounter3, .mhpmcounter4, .mhpmevent3, .sedeleg, .sideleg]) :
      csrRead s c = 0#64 ∧ csrWrite s v c = s := by
    simp only [List.mem_cons, List.not_mem_nil, or_false] at hc
    obtain rfl | rfl | rfl | rfl | rfl | rfl | rfl := hc <;> exact ⟨rfl, rfl⟩
  exact ⟨hzero, csrCheck_read_of_level_zero s (by decide) rfl, csrCheck_read_of_level_zero s (by decide) rfl,
    csrCheck_write_readOnly s (by decide), csrCheck_write_readOnly s (by decide), rfl, rfl,
    congrArg Board.marchid (csrWrite_board s v c), congrArg Board.mimpid (csrWrite_board s v c),
    csrCheck_write_readOnly s (by decide), csrCheck_write_readOnly s (by decide), rfl,
    csrCheck_read_of_level_zero s (by decide) rfl, csrCheck_write_readOnly s (by decide),
    mipValue_getLsbD_code s .mei, mipValue_getLsbD_code s .msi⟩

end Sys2Proof.Machine
end

-- ==== Proofs of what a CSR write leaves (spec/10_state.md R32, R71, R73, R74) ====
section
/-! PROOFS. A CSR write changes one register's storage, and only the CSRs linked to it show that storage. -/

namespace Sys2Proof.Machine

/-- Settles O45, by the CSR written: a hardwired one leaves the state, and of the others only the linked CSRs read the
field that the write changes. -/
theorem csrWriteLeavesOtherCsrs : Obligations.CsrWriteLeavesOtherCsrs := by
  intro s v c d h
  cases c
  case cycle | time | instret | hpmcounter3 | hpmcounter4 | sedeleg | sideleg | mvendorid | marchid | mimpid | mhartid |
      misa | mhpmcounter3 | mhpmcounter4 | mhpmevent3 => rfl
  case sstatus =>
    cases d with
    | sstatus | mstatus => exact absurd (by simp [Linked]) h
    | _ => rfl
  case mstatus =>
    cases d with
    | sstatus | mstatus => exact absurd (by simp [Linked]) h
    | _ => rfl
  case sie =>
    cases d with
    | sie | mie => exact absurd (by simp [Linked]) h
    | _ => rfl
  case mie =>
    cases d with
    | sie | mie => exact absurd (by simp [Linked]) h
    | _ => rfl
  case sip =>
    cases d with
    | sip | mip => exact absurd (by simp [Linked]) h
    | _ => rfl
  case mip =>
    cases d with
    | sip | mip => exact absurd (by simp [Linked]) h
    | _ => rfl
  case mcycle =>
    cases d with
    | cycle | mcycle => exact absurd (by simp [Linked]) h
    | _ => rfl
  case minstret =>
    cases d with
    | instret | minstret => exact absurd (by simp [Linked]) h
    | _ => rfl
  case stvec =>
    cases d with
    | stvec => exact absurd (by simp [Linked]) h
    | _ => rfl
  case scounteren =>
    cases d with
    | scounteren => exact absurd (by simp [Linked]) h
    | _ => rfl
  case sscratch =>
    cases d with
    | sscratch => exact absurd (by simp [Linked]) h
    | _ => rfl
  case sepc =>
    cases d with
    | sepc => exact absurd (by simp [Linked]) h
    | _ => rfl
  case scause =>
    cases d with
    | scause => exact absurd (by simp [Linked]) h
    | _ => rfl
  case stval =>
    cases d with
    | stval => exact absurd (by simp [Linked]) h
    | _ => rfl
  case satp =>
    cases d with
    | satp => exact absurd (by simp [Linked]) h
    | _ => rfl
  case medeleg =>
    cases d with
    | medeleg => exact absurd (by simp [Linked]) h
    | _ => rfl
  case mideleg =>
    cases d with
    | mideleg => exact absurd (by simp [Linked]) h
    | _ => rfl
  case mtvec =>
    cases d with
    | mtvec => exact absurd (by simp [Linked]) h
    | _ => rfl
  case mcounteren =>
    cases d with
    | mcounteren => exact absurd (by simp [Linked]) h
    | _ => rfl
  case mscratch =>
    cases d with
    | mscratch => exact absurd (by simp [Linked]) h
    | _ => rfl
  case mepc =>
    cases d with
    | mepc => exact absurd (by simp [Linked]) h
    | _ => rfl
  case mcause =>
    cases d with
    | mcause => exact absurd (by simp [Linked]) h
    | _ => rfl
  case mtval =>
    cases d with
    | mtval => exact absurd (by simp [Linked]) h
    | _ => rfl
  case mcountinhibit =>
    cases d with
    | mcountinhibit => exact absurd (by simp [Linked]) h
    | _ => rfl

end Sys2Proof.Machine
end
